-- ==== Sys2Proof/Word.lean ====
section
/-! DEFINITION. Word and field types of the PSG/SGVB core: every cell of both memories is one byte (R65), a LATCH
carries a nibble (R91). -/

namespace Sys2Proof

/-- One byte: a command, a credit operand, a sample or a cell of the part memories (R65, R68). -/
abbrev Byte := BitVec 8

/-- One nibble: the data field of a LATCH command, a volume (R91, R22). -/
abbrev Nibble := BitVec 4

end Sys2Proof
end

