-- ==== Sys2Proof/Config.lean ====
section
/-! DEFINITION. What is fixed while the block runs, the configuration of R9, R10 and R39, and the model's two
free values: the schedule between agents, and the payload bytes nothing has written. -/

namespace Sys2Proof

/-- The configuration registers (R39), latched at RESET and constant afterwards. The fields with a default are
those the spec gives one (R9, R10); CALLBACK_PERIOD, NOISE_MULT, the geometry and PREFIX_TAG are inputs. Which
values are legal is `Config.Legal` (Machine/Geometry.lean). -/
structure Config where
  /-- CALLBACK_PERIOD, credit units between strobes (R9, R167). -/
  callbackPeriod : Nat
  /-- NOISE_MULT, the multiplier of the three fixed noise reloads (R147, R155). -/
  noiseMult : Nat
  /-- WIDTH in pixels (R9). -/
  width : Nat
  /-- HEIGHT in rows (R9). -/
  height : Nat
  /-- PART_COUNT, parts of a frame (R9, R197). -/
  partCount : Nat
  /-- EXTRA_PARTS, parts stored and never sent (R9, R199). -/
  extraParts : Nat := 0
  /-- PREFIX_TAG, the transport header byte of every part (R10, R201). -/
  prefixTag : Byte
  /-- TONE_DATA_WIDTH, how many period bits a DATA command loads (R10, R184). -/
  toneDataWidth : Nat := 6
  /-- LFSR_TAPS, the white-noise tap mask (R10, R149). PRESUMED, log 14. -/
  lfsrTaps : BitVec 16 := 0x0009#16
  /-- CH_ENABLE[0..3] (R30, R162). -/
  chEnable : Vector Bool 4 := Vector.replicate 4 true
  /-- POLARITY_RESET, the reset value of the tone and noise polarities (R10, R251). -/
  polarityReset : Bool := false
  deriving DecidableEq, Repr

/-- The agents that perform events (R7). AUDIO and DISP are sinks and perform none. -/
inductive Agent where
  | host
  | psgw
  | vidw
  deriving DecidableEq, Repr, Inhabited

/-- FREE VALUE (R7, R231: any enabled event of any agent may be next). The agent whose turn it is where no data
fixes the schedule, as a function of the turn counter. Log 3. -/
opaque Config.freeAgent : Nat → Agent

/-- FREE VALUE (R41, R64, U5: an unwritten payload byte is an arbitrary fixed byte). The byte a payload cell
holds before any PIXWR writes it, as a function of the cell's address. Log 5. -/
opaque Config.unwrittenByte : Nat → Byte

end Sys2Proof
end

