-- ==== Sys2Proof/Machine/Geometry.lean ====
section
/-! DEFINITION. The geometry derived from the configuration (R40, R195 to R199), which configurations are legal
(R9, R14, R39), and the cells of the part memories as addresses (R41, R60, R71). -/

namespace Sys2Proof

/-- `total_size = WIDTH × HEIGHT × 2` bytes (R196): 16-bit pixels. -/
def Config.totalSize (c : Config) : Nat := c.width * c.height * 2

/-- `part_size = total_size / PART_COUNT`, exact in a legal configuration (R197). -/
def Config.partSize (c : Config) : Nat := c.totalSize / c.partCount

/-- `lines_per_part = floor(part_size / (WIDTH × 2))`; no rule of the block reads it (R198, U1). -/
def Config.linesPerPart (c : Config) : Nat := c.partSize / (c.width * 2)

/-- The frame byte that payload byte `o` of part `i` holds: `i × part_size + o` (R71). -/
def Config.frameOffset (c : Config) (i o : Nat) : Nat := i * c.partSize + o

/-- Where row `y` of the frame begins, as part and payload offset (R198); meaningful when `part_size` is a whole
number of scanlines (U1). -/
def Config.rowPlace (c : Config) (y : Nat) : Nat × Nat :=
  (y / c.linesPerPart, y % c.linesPerPart * (c.width * 2))

/-- The suggested `CALLBACK_PERIOD` for a callback frequency in samples per second (R10, R167). PRESUMED, log 1:
the 3579545 credit units per second are general knowledge (G4); the rules take the period itself. -/
def callbackPeriodOf (f : Nat) : Nat := 3579545 / f

/-- `N_PARTS = PART_COUNT + EXTRA_PARTS` (R199). -/
def Config.nParts (c : Config) : Nat := c.partCount + c.extraParts

/-- The legal configurations (R9, R14, R39). Any other is refused at RESET. -/
abbrev Config.Legal (c : Config) : Prop :=
  1 ≤ c.callbackPeriod ∧ (c.noiseMult = 1 ∨ c.noiseMult = 16) ∧
  (c.toneDataWidth = 6 ∨ c.toneDataWidth = 4) ∧ c.lfsrTaps = 0x0009#16 ∧
  1 ≤ c.width ∧ 1 ≤ c.height ∧ 1 ≤ c.partCount ∧ c.totalSize % c.partCount = 0

/-- How many cells the part memories have: `2 × N_PARTS × (part_size + 1)` (R60). -/
def Config.cellCount (c : Config) : Nat := 2 * c.nParts * (c.partSize + 1)

/-- The address of the cell `mem[b][i][r]` (R41): parts one after another, prefix byte first (R71). The numbering
is the model's own, log 6: no agent sees it. -/
def Config.cellAddr (c : Config) (b : Fin 2) (i r : Nat) : Nat :=
  (b.val * c.nParts + i) * (c.partSize + 1) + r

/-- Is the cell at this address the prefix byte of its part, real offset 0 (R71)? -/
def Config.isPrefix (c : Config) (a : Nat) : Bool := a % (c.partSize + 1) == 0

/-- What the cell at an address that no write has changed holds: the transport prefix `PREFIX_TAG` at real
offset 0, and no value the spec gives at a payload offset (R41, R251). -/
def Config.unlisted (c : Config) (a : Nat) : Option Byte :=
  if c.isPrefix a then some c.prefixTag else none

end Sys2Proof
end

