-- ==== Sys2Proof/Syntax.lean ====
section
/-! DEFINITION. The instructions: one constructor per row of opcode_table.json. Commands (formats L and D), HOST
port transactions, internal events, outputs and the assembler's pseudo-instructions (R95, R98, R100). -/

namespace Sys2Proof

/-- The two kinds of register a latch selects (R26): `latch_type` = 0 is tone (or noise control for channel 3),
1 is volume. -/
inductive RegType where
  | tone
  | volume
  deriving DecidableEq, Repr

/-- Every row of the command and event table. -/
inductive Instr where
  /-- LTONE0 n: low nibble of period[0] (R177). -/
  | ltone0 (n : Nibble)
  /-- LTONE1 n (R177). -/
  | ltone1 (n : Nibble)
  /-- LTONE2 n (R177). -/
  | ltone2 (n : Nibble)
  /-- LNOISE m, r: reset the LFSR, load mode and rate (R179, R181). -/
  | lnoise (m : BitVec 1) (r : BitVec 2)
  /-- LVOL0 v (R178). -/
  | lvol0 (v : Nibble)
  /-- LVOL1 v (R178). -/
  | lvol1 (v : Nibble)
  /-- LVOL2 v (R178). -/
  | lvol2 (v : Nibble)
  /-- LVOL3 v (R178). -/
  | lvol3 (v : Nibble)
  /-- DATA d: writes the register the latch selects when it executes (R183). -/
  | data (d : BitVec 6)
  /-- DATA.TONE d: DATA with the latch at (0..2, tone) (R184). -/
  | dataTone (d : BitVec 6)
  /-- DATA.VOL v: DATA with the latch at a volume (R185). -/
  | dataVol (v : Nibble)
  /-- DATA.NOISE m, r: DATA with the latch at (3, tone) (R186). -/
  | dataNoise (m : BitVec 1) (r : BitVec 2)
  /-- WR b: HOST queues a command byte (R110, R111). -/
  | wr (b : Byte)
  /-- ADV c: HOST adds cycle credit (R112). -/
  | adv (c : Byte)
  /-- SYNC: HOST requests a drain pass (R114). -/
  | sync
  /-- TICK: the frame boundary (R202, R203). -/
  | tick
  /-- PIXWR i, o, v: the renderer stores byte v at payload offset o of part i (R200). -/
  | pixwr (i o : Nat) (v : Byte)
  /-- WAKE: PSGW begins a drain pass (R120). -/
  | wake
  /-- STEP: PSGW performs one pass of the synchronization loop (R122). -/
  | step
  /-- SLEEP: PSGW ends a drain pass (R128). -/
  | sleep
  /-- TXSTART: VIDW takes the buffer handed over (R204). -/
  | txstart
  /-- TXPART: VIDW sends the next part (R205). -/
  | txpart
  /-- TXEND: VIDW ends the transmission (R206). -/
  | txend
  /-- RESET c: single-shot construction of the state from the configuration c (R250). -/
  | reset (c : Config)
  /-- SAMPLE s0, s1, s2, s3: one strobe to AUDIO (R165). -/
  | sample (s0 s1 s2 s3 : Byte)
  /-- TX bytes, len: one bulk transfer to DISP (R205). -/
  | tx (bytes : List Byte) (len : Nat)
  /-- TONE c, p: LTONE c, p[3:0] ; DATA p[9:4] (R100). -/
  | tone (c : Fin 3) (p : BitVec 10)
  /-- VOL c, v: LVOL c, v (R100). -/
  | vol (c : Fin 4) (v : Nibble)
  /-- SILENCE: LVOL 0..3, 15 (R100). -/
  | silence
  /-- WRS b: WR b ; SYNC (R100). -/
  | wrs (b : Byte)
  /-- ENDFRAME: SYNC ; TICK (R100). -/
  | endframe
  deriving DecidableEq, Repr

/-- A decoded command byte: format L with its channel and type resolved, or format D (R91, R92, R95). -/
inductive Command where
  /-- LTONE c, n. -/
  | ltone (c : Fin 3) (n : Nibble)
  /-- LVOL c, v. -/
  | lvol (c : Fin 4) (v : Nibble)
  /-- LNOISE m, r. -/
  | lnoise (m : BitVec 1) (r : BitVec 2)
  /-- DATA d. -/
  | data (d : BitVec 6)
  deriving DecidableEq, Repr

/-- The instruction a decoded command is: its row of the first table of R95. -/
def Command.toInstr : Command → Instr
  | .ltone 0 n => .ltone0 n
  | .ltone 1 n => .ltone1 n
  | .ltone 2 n => .ltone2 n
  | .lvol 0 v => .lvol0 v
  | .lvol 1 v => .lvol1 v
  | .lvol 2 v => .lvol2 v
  | .lvol 3 v => .lvol3 v
  | .lnoise m r => .lnoise m r
  | .data d => .data d

end Sys2Proof
end

