-- ==== Sys2Proof/Machine/State.lean ====
section
/-! DEFINITION. The state of the block (R20 to R46), what stops a step, and the state after RESET (R251). The PSG
group and the video group are disjoint structures (R20). -/

namespace Sys2Proof.Machine

/-- The PSG worker's state (R32). -/
inductive Worker where
  | idle
  | draining
  deriving DecidableEq, Repr

/-- The PSG state (R20 to R38). -/
structure Psg where
  /-- `period[0..2]` (R21). -/
  period : Vector (BitVec 10) 3
  /-- `vol[0..3]` (R22). -/
  vol : Vector Nibble 4
  /-- `nrate` (R23). -/
  nrate : BitVec 2
  /-- `nmode`, 1 = white (R23). -/
  nmode : BitVec 1
  /-- `latch_ch` (R26). -/
  latchCh : Fin 4
  /-- `latch_type` (R26). -/
  latchType : RegType
  /-- `tcnt[0..2]`, signed (R33). -/
  tcnt : Vector Int 3
  /-- `tpol[0..2]` (R27). -/
  tpol : Vector Bool 3
  /-- `lfsr` (R34). -/
  lfsr : BitVec 16
  /-- `ncnt`, signed (R34). -/
  ncnt : Int
  /-- `nff` (R28). -/
  nff : Bool
  /-- `npol` (R29). -/
  npol : Bool
  /-- `q`, head first (R35). -/
  q : List Byte
  /-- `credit` (R36). -/
  credit : Nat
  /-- `cb_acc` (R37). -/
  cbAcc : Nat
  /-- `wr_dropped` (R38). -/
  wrDropped : Nat
  /-- `sync_pending` (R31). -/
  syncPending : Bool
  /-- `worker` (R32). -/
  worker : Worker
  deriving DecidableEq, Repr

/-- The part memories as (address, byte) pairs in canonical form (R41): see Machine/Ops.lean. -/
abbrev Memory := List Host.Cell

/-- The video state (R20, R41 to R46). -/
structure Video where
  /-- `mem` (R41), by the addresses of `Config.cellAddr`. -/
  mem : Memory
  /-- `draw` (R42). -/
  draw : Fin 2
  /-- `slot` (R43). -/
  slot : Option (Fin 2)
  /-- `tx_active` (R44). -/
  txActive : Bool
  /-- `tx_buf` (R44). -/
  txBuf : Fin 2
  /-- `tx_part` (R45). -/
  txPart : Nat
  /-- `dropped_frames` (R46). -/
  droppedFrames : Nat
  deriving DecidableEq, Repr

/-- One SAMPLE strobe: the four 8-bit samples (R163, R165). -/
structure Strobe where
  s0 : Byte
  s1 : Byte
  s2 : Byte
  s3 : Byte
  deriving DecidableEq, Repr

/-- One TX transfer: the bytes and the length (R205). -/
structure Transfer where
  bytes : List Byte
  len : Nat
  deriving DecidableEq, Repr

/-- The observable history of the output ports in emission order (R47). The model's own field, log 8: the block
keeps no record (R169) and no rule reads it. -/
structure Outputs where
  samples : List Strobe
  transfers : List Transfer
  deriving DecidableEq, Repr

/-- The parameters of the event relation (R47), as data. The model's own field, log 3. -/
structure Env where
  /-- The lines of HOST's program not yet issued (R99). -/
  program : List Instr
  /-- The agents whose turns come next, as far as data fixes the schedule. -/
  schedule : List Agent
  /-- How many turns the free schedule `Config.freeAgent` has decided. -/
  turn : Nat
  deriving DecidableEq, Repr

/-- The whole machine. -/
structure State where
  /-- RESET has happened (R250, R252). The model's own field, log 7. -/
  resetDone : Bool
  /-- The configuration registers (R39). -/
  cfg : Config
  psg : Psg
  video : Video
  out : Outputs
  env : Env
  deriving DecidableEq, Repr

/-- Faults: there are none. The block raises no synchronous exception and takes no trap (R225). -/
inductive Fault where
  deriving DecidableEq, Repr

/-- Why the spec gives a step no meaning (R14 (c), R228). Every one is safe: the model stops. -/
inductive Refusal where
  /-- Raised by an arm of `exec` whose instruction has no meaning yet. Safe. -/
  | notModelled (mnemonic : String)
  /-- Raised by the meaning of an internal event whose enabling condition is false (R120, R122, R128, R204, R205,
  R206): such an event does not happen, and `step` never chooses it. Safe. Log 9. -/
  | notEnabled
  /-- Raised by the meaning of a DATA sub-form while the latch selects another sub-form (R96, R183): the byte is
  then not this row's. Safe. Log 10. -/
  | notSelectedByLatch
  /-- Raised by RESET with a configuration that is not legal (R14, R250), and by STEP with CALLBACK_PERIOD = 0
  (U17). Safe. Log 23. -/
  | illegalConfiguration
  /-- Raised by RESET after RESET (R252, U7). Safe. Log 7. -/
  | secondReset
  /-- Raised by HOST's turn when its program issues another event before RESET (R250). Safe. Log 7. -/
  | beforeReset
  /-- Raised by PIXWR with a part index or payload offset out of range (R14, R200, U15). Safe. -/
  | pixelOutOfRange
  /-- Raised by HOST's turn at a program line that is no HOST event (R99: a worker event is never written in a
  program). Safe. Log 11. -/
  | notAHostEvent
  deriving DecidableEq, Repr

/-- `LFSR_RESET` (R8). -/
def lfsrReset : BitVec 16 := 0x8000#16

/-- The PSG state after RESET with configuration `c` (R251). -/
def Psg.initial (c : Config) : Psg where
  period := Vector.replicate 3 0
  vol := Vector.replicate 4 0xF
  nrate := 0
  nmode := 0
  latchCh := 0
  latchType := .tone
  tcnt := Vector.replicate 3 0
  tpol := Vector.replicate 3 c.polarityReset
  lfsr := lfsrReset
  ncnt := 0
  nff := false
  npol := c.polarityReset
  q := []
  credit := 0
  cbAcc := 0
  wrDropped := 0
  syncPending := false
  worker := .idle

/-- The video state after RESET (R251): no cell listed, so prefixes read as the tag and payload bytes have no
value the spec gives. -/
def Video.initial : Video where
  mem := []
  draw := 0
  slot := none
  txActive := false
  txBuf := 0
  txPart := 0
  droppedFrames := 0

/-- The state after RESET with configuration `c` (R250, R251), no program loaded. -/
def State.resetWith (c : Config) : State where
  resetDone := true
  cfg := c
  psg := Psg.initial c
  video := Video.initial
  out := ⟨[], []⟩
  env := ⟨[], [], 0⟩

/-- The configuration `State.reset` is built with. DESIGN CHOICE, log 1: the spec leaves CALLBACK_PERIOD,
NOISE_MULT, the geometry and PREFIX_TAG open; these are values its own examples use. No statement rests on them. -/
def standardConfig : Config where
  callbackPeriod := 324
  noiseMult := 1
  width := 4
  height := 2
  partCount := 2
  prefixTag := 0xA5

/-- The machine right after RESET (R251), under the configuration of log 1. -/
def State.reset : State := State.resetWith standardConfig

/-- A machine on which RESET has not happened (R250); its other fields hold nothing any event reads. Log 7. -/
def State.beforeReset : State := { State.reset with resetDone := false }

end Sys2Proof.Machine
end

