-- ==== Sys2Proof/Machine/Operands.lean ====
section
/-! DEFINITION. Operand assembly (R94): how a command's data bits enter a register, and how a sample is widened.
Nothing is sign-extended (R11, R131). -/

namespace Sys2Proof.Machine

/-- LATCH to a tone period (R94 (a), R177): `period[9:4] ++ n`. -/
def periodLatch (p : BitVec 10) (n : Nibble) : BitVec 10 := p.extractLsb' 4 6 ++ n

/-- DATA to a tone period with `TONE_DATA_WIDTH` = 6 (R94 (b), R184): `d6 ++ period[3:0]`. -/
def periodData6 (p : BitVec 10) (d : BitVec 6) : BitVec 10 := d ++ p.extractLsb' 0 4

/-- DATA to a tone period with `TONE_DATA_WIDTH` = 4 (R94 (b), R184): `period[9:8] ++ d6[3:0] ++ period[3:0]`. -/
def periodData4 (p : BitVec 10) (d : BitVec 6) : BitVec 10 :=
  p.extractLsb' 8 2 ++ d.extractLsb' 0 4 ++ p.extractLsb' 0 4

/-- DATA to a tone period under the configured width (R184). -/
def periodData (c : Config) (p : BitVec 10) (d : BitVec 6) : BitVec 10 :=
  if c.toneDataWidth = 6 then periodData6 p d
  else if c.toneDataWidth = 4 then periodData4 p d
  else p

/-- The channel of a latch that selects a tone period (R24). -/
def toneChannel (ch : Fin 4) : Option (Fin 3) := if h : ch.val < 3 then some ⟨ch.val, h⟩ else none

/-- A tone reload: `period × 16` (R138), also the external-clock noise reload (R147). -/
def scaledPeriod (p : BitVec 10) : Int := (p.toNat * 16 : Nat)

/-- The decoded level of a volume, `15 - vol` (R160), widened to a sample byte (R163). -/
def level (v : Nibble) : Byte := (0xF#4 - v).setWidth 8

end Sys2Proof.Machine
end

