-- ==== Sys2Proof/Machine/Flags.lean ====
section
/-! DEFINITION. The one-bit computations: crossing zero, the tone guard, the polarity of a crossing, the LFSR's
feedback, and the gate of a sample (R136 to R140, R149, R161, R162). -/

namespace Sys2Proof.Machine

/-- "Crossing zero" is a counter `<= 0` after its decrement (R137). DEDUCED, log 16. -/
def crossed (n : Int) : Bool := decide (n ≤ 0)

/-- The tone guard (R140): the countdown is active or the period is at least 8. -/
def toneGuard (count : Int) (p : BitVec 10) : Bool := decide (0 < count) || decide (8 ≤ p.toNat)

/-- The polarity after a crossing (R136, R139): toggled, except in PCM mode, period 1. -/
def crossedPolarity (p : BitVec 10) (pol : Bool) : Bool := if p = 1 then pol else !pol

/-- `parity(v)`: the exclusive or of all bits (R11). -/
def parity (v : BitVec 16) : Bool := (List.range 16).foldl (fun acc i => acc ^^ v.getLsbD i) false

/-- The bit fed back into bit 15 (R149): the parity of the tapped bits in white mode, the low bit in periodic
mode. -/
def feedback (c : Config) (nmode : BitVec 1) (l : BitVec 16) : Bool :=
  if nmode = 1 then parity (l &&& c.lfsrTaps) else l[0]

/-- The LFSR after a clock: `fb ++ lfsr[15:1]` (R149). -/
def lfsrShift (fb : Bool) (l : BitVec 16) : BitVec 16 := BitVec.ofBool fb ++ l.extractLsb' 1 15

/-- One channel's sample (R161, R162): the level gated by polarity and enable. -/
def gatedSample (enable pol : Bool) (v : Nibble) : Byte := if enable && pol then level v else 0

end Sys2Proof.Machine
end

