-- ==== Sys2Proof/Machine/Ops.lean ====
section
/-! DEFINITION. The named operations over registers, queue, credit, part memories and output ports (R12, R13, R61 to
R64, R81). There is no exception to take and none to return from (R225, R232, R233): what stands in their place are
the two drop events, each one shared operation here (R226, R227). -/

namespace Sys2Proof.Machine

/-! ## PSG registers (R24) -/

/-- `latch_ch <- ch ; latch_type <- ty` (R176). -/
def Psg.setLatch (p : Psg) (ch : Fin 4) (ty : RegType) : Psg := { p with latchCh := ch, latchType := ty }

/-- `period[c] <- v`. -/
def Psg.setPeriod (p : Psg) (c : Fin 3) (v : BitVec 10) : Psg := { p with period := p.period.set c v }

/-- `vol[c] <- v`. -/
def Psg.setVol (p : Psg) (c : Fin 4) (v : Nibble) : Psg := { p with vol := p.vol.set c v }

/-- `NoiseWrite` (R181): reset the LFSR, load rate and mode. `ncnt`, `nff` and `npol` stay (R154). -/
def Psg.noiseWrite (p : Psg) (m : BitVec 1) (r : BitVec 2) : Psg := { p with lfsr := lfsrReset, nrate := r, nmode := m }

/-- `tcnt[c] <- n ; tpol[c] <- b`. -/
def Psg.setTone (p : Psg) (c : Fin 3) (n : Int) (b : Bool) : Psg :=
  { p with tcnt := p.tcnt.set c n, tpol := p.tpol.set c b }

/-- `ncnt <- n ; nff <- f`. -/
def Psg.setNoiseCount (p : Psg) (n : Int) (f : Bool) : Psg := { p with ncnt := n, nff := f }

/-- `lfsr <- l ; npol <- b`. -/
def Psg.setLfsr (p : Psg) (l : BitVec 16) (b : Bool) : Psg := { p with lfsr := l, npol := b }

/-- `cb_acc <- n`. -/
def Psg.setCbAcc (p : Psg) (n : Nat) : Psg := { p with cbAcc := n }

/-- `sync_pending <- b`. -/
def Psg.setSync (p : Psg) (b : Bool) : Psg := { p with syncPending := b }

/-- `worker <- w`. -/
def Psg.setWorker (p : Psg) (w : Worker) : Psg := { p with worker := w }

/-! ## Credit (R81 (a), (b)) -/

/-- `credit <- credit + n`, one atomic add (R112). -/
def Psg.addCredit (p : Psg) (n : Nat) : Psg := { p with credit := p.credit + n }

/-- `credit <- credit - 16`, one atomic subtract (R126). -/
def Psg.takeCredit (p : Psg) : Psg := { p with credit := p.credit - 16 }

/-! ## The command queue (R61 to R63) -/

/-- `QUEUE_CAP` (R8). -/
def queueCap : Nat := 1024

/-- `QLen()` (R61). -/
def Psg.qLen (p : Psg) : Nat := p.q.length

/-- `QPush(b)` (R62): `q <- q ++ [b]`. The caller tests for room. -/
def Psg.qPush (p : Psg) (b : Byte) : Psg := { p with q := p.q ++ [b] }

/-- The state after `QPop()` (R63): the head is gone. -/
def Psg.qDrop (p : Psg) : Psg := { p with q := p.q.tail }

/-- Drop event WR_DROP (R226): count, and nothing else. -/
def Psg.dropWrite (p : Psg) : Psg := { p with wrDropped := p.wrDropped + 1 }

/-- The effect of `WR b` (R110, R111): queue the byte, or drop the newest when the queue is full. -/
def Psg.write (p : Psg) (b : Byte) : Psg := if p.qLen < queueCap then p.qPush b else p.dropWrite

/-! ## The part memories (R41, R64) -/

/-- What the list holds at an address. -/
def Memory.get? : Memory → Nat → Option Byte
  | [], _ => none
  | (k, v) :: m, a => if k = a then some v else Memory.get? m a

/-- The list with `v` at address `a`, in address order. -/
def Memory.put : Memory → Nat → Byte → Memory
  | [], a, v => [(a, v)]
  | (k, w) :: m, a, v =>
    if a < k then (a, v) :: (k, w) :: m
    else if a = k then (a, v) :: m
    else (k, w) :: Memory.put m a v

/-- The list without address `a`. -/
def Memory.erase (m : Memory) (a : Nat) : Memory := m.filter (fun e => e.1 ≠ a)

/-- The canonical form: addresses strictly rise, lie in the space V (R60), and no entry equals what an unlisted
address reads as. -/
abbrev Memory.wf (c : Config) (m : Memory) : Prop :=
  m.Pairwise (fun x y => x.1 < y.1) ∧ ∀ e ∈ m, e.1 < c.cellCount ∧ c.unlisted e.1 ≠ some e.2

/-- The byte at an address (R64): what is listed, else the prefix tag at a prefix cell, else the free value of a
payload cell nothing has written (U5, log 5). -/
def Memory.read (c : Config) (m : Memory) (a : Nat) : Byte :=
  match m.get? a with
  | some v => v
  | none => (c.unlisted a).getD (Config.unwrittenByte a)

/-- Store a byte at an address and keep the canonical form. -/
def Memory.write (c : Config) (m : Memory) (a : Nat) (v : Byte) : Memory :=
  if c.unlisted a = some v then m.erase a else m.put a v

/-- `MemRead(b, i, r, 1)` (R64). -/
def Video.memRead (c : Config) (v : Video) (b : Fin 2) (i r : Nat) : Byte := v.mem.read c (c.cellAddr b i r)

/-- `MemWrite(b, i, r, 1, x)` (R64). -/
def Video.memWrite (c : Config) (v : Video) (b : Fin 2) (i r : Nat) (x : Byte) : Video :=
  { v with mem := v.mem.write c (c.cellAddr b i r) x }

/-- The bytes of one part in ascending real offset, prefix first (R65, R205). -/
def Video.partBytes (c : Config) (v : Video) (b : Fin 2) (i : Nat) : List Byte :=
  (List.range (c.partSize + 1)).map (fun r => v.memRead c b i r)

/-! ## Frames (R202 to R207) -/

/-- The other buffer, `1 - b` (R42). -/
def otherBuf (b : Fin 2) : Fin 2 := 1 - b

/-- A frame is in flight (R207): the slot is occupied or a transmission is active (C2). -/
def Video.inFlight (v : Video) : Bool := v.slot.isSome || v.txActive

/-- The accepted TICK (R202): hand the drawable buffer over and swap. -/
def Video.handOver (v : Video) : Video := { v with slot := some v.draw, draw := otherBuf v.draw }

/-- Drop event FRAME_DROP (R227): count, and nothing else. -/
def Video.dropFrame (v : Video) : Video := { v with droppedFrames := v.droppedFrames + 1 }

/-- The effect of TICK (R202, R203): the in-flight test precedes the swap (R231). -/
def Video.tick (v : Video) : Video := if v.inFlight then v.dropFrame else v.handOver

/-- The effect of TXSTART on the slot holding `b` (R204). -/
def Video.takeSlot (v : Video) (b : Fin 2) : Video := { v with txBuf := b, slot := none, txActive := true, txPart := 0 }

/-- `tx_part <- tx_part + 1` (R205). -/
def Video.nextPart (v : Video) : Video := { v with txPart := v.txPart + 1 }

/-- `tx_active <- 0` (R206). -/
def Video.endTx (v : Video) : Video := { v with txActive := false }

/-! ## Outputs (R13, R47) -/

/-- `emit SAMPLE`, once for each of `xs` in order (R165, R169: the sink is always ready). -/
def Outputs.emitSamples (o : Outputs) (xs : List Strobe) : Outputs := { o with samples := o.samples ++ xs }

/-- `emit TX(bytes, len)` (R205). -/
def Outputs.emitTx (o : Outputs) (x : Transfer) : Outputs := { o with transfers := o.transfers ++ [x] }

end Sys2Proof.Machine
end

