-- ==== Sys2Proof/Machine/OutputPorts.lean ====
section
/-! DEFINITION. The output rows SAMPLE and TX: the emission itself (R13, R165, R205). STEP and TXPART perform these
emissions; no agent issues one by itself (R7). Log 12. -/

namespace Sys2Proof.Machine

/-- SAMPLE s0, s1, s2, s3: one strobe on the SAMPLE port; the sink is always ready (R169). -/
def execSample (s0 s1 s2 s3 : Byte) (s : State) : Host.Outcome State Fault Refusal :=
  .next { s with out := s.out.emitSamples [⟨s0, s1, s2, s3⟩] }

/-- TX bytes, len: one bulk transfer on the TX port (R205). -/
def execTx (bytes : List Byte) (len : Nat) (s : State) : Host.Outcome State Fault Refusal :=
  .next { s with out := s.out.emitTx ⟨bytes, len⟩ }

end Sys2Proof.Machine
end

