-- ==== Sys2Proof/Machine/ResetEvent.lean ====
section
/-! DEFINITION. RESET (R250 to R252): the single-shot construction of the state. -/

namespace Sys2Proof.Machine

/-- RESET c (R250): every element takes the value of R251 under the configuration `c`. Refused after a first RESET
(R252, U7) and for an illegal configuration (R14). HOST's program and the schedule are no state of the block and
stay. -/
def execReset (c : Config) (s : State) : Host.Outcome State Fault Refusal :=
  if s.resetDone then .refused .secondReset
  else if c.Legal then .next { State.resetWith c with env := s.env }
  else .refused .illegalConfiguration

end Sys2Proof.Machine
end

