-- ==== Sys2Proof/Decode.lean ====
section
/-! DEFINITION. Decoding and encoding (R90 to R100). A command is one byte, decoded without any other byte (R90);
the sub-form of a DATA byte is chosen by the latch (R96). Bytes on another port belong to that port's row (R98).
The bit positions of `ch`, `ty`, `d4`, `d6` and of the noise nibble are PRESUMED, log 13. -/

namespace Sys2Proof

/-! ## Field extractors (R91, R92, R93) -/

/-- Bit 7: 1 is format L (LATCH), 0 is format D (DATA) (R90). -/
def fieldLatch (b : Byte) : Bool := b[7]

/-- `ch`, bits 6 and 5 of a LATCH byte (R91). -/
def fieldCh (b : Byte) : Fin 4 := (b.extractLsb' 5 2).toFin

/-- `ty`, bit 4 of a LATCH byte: 1 is volume (R91). -/
def fieldTy (b : Byte) : RegType := if b[4] then .volume else .tone

/-- `d4`, bits 3 to 0 of a LATCH byte (R91). -/
def fieldD4 (b : Byte) : Nibble := b.extractLsb' 0 4

/-- `d6`, bits 5 to 0 of a DATA byte; bit 6 is ignored (R92). -/
def fieldD6 (b : Byte) : BitVec 6 := b.extractLsb' 0 6

/-- `d6[3:0]`, the part of a DATA operand that a volume or the noise control takes (R94 (c), (d)). -/
def lowNibble (d : BitVec 6) : Nibble := d.extractLsb' 0 4

/-- `nmode`, bit 2 of the noise nibble (R93). -/
def nibbleMode (n : Nibble) : BitVec 1 := n.extractLsb' 2 1

/-- `nrate`, bits 1 and 0 of the noise nibble; bit 3 is ignored (R93). -/
def nibbleRate (n : Nibble) : BitVec 2 := n.extractLsb' 0 2

/-! ## Decoding -/

/-- The command a byte is (R95): every one of the 256 byte values is exactly one (R97). -/
def decodeCommand (b : Byte) : Command :=
  if fieldLatch b then
    match fieldTy b, fieldCh b with
    | .volume, c => .lvol c (fieldD4 b)
    | .tone, 0 => .ltone 0 (fieldD4 b)
    | .tone, 1 => .ltone 1 (fieldD4 b)
    | .tone, 2 => .ltone 2 (fieldD4 b)
    | .tone, 3 => .lnoise (nibbleMode (fieldD4 b)) (nibbleRate (fieldD4 b))
  else .data (fieldD6 b)

/-- The instruction a command byte is (R95). -/
def decodeByte (b : Byte) : Instr := (decodeCommand b).toInstr

/-- The sub-form of a DATA command under a latch (R96, R183). -/
def resolveData (ch : Fin 4) (ty : RegType) (d : BitVec 6) : Instr :=
  match ty, ch with
  | .volume, _ => .dataVol (lowNibble d)
  | .tone, 3 => .dataNoise (nibbleMode (lowNibble d)) (nibbleRate (lowNibble d))
  | .tone, _ => .dataTone d

/-- The row of a command byte with a DATA byte resolved by the latch as it is when the byte executes (R96). -/
def decodeAt (ch : Fin 4) (ty : RegType) (b : Byte) : Instr :=
  if fieldLatch b then decodeByte b else resolveData ch ty (fieldD6 b)

/-- Where a transaction's bytes arrive: on the command queue, or on a port, which by itself selects the row
(R98). -/
inductive Port where
  | command
  | wr
  | adv
  | sync
  | tick
  | sample
  deriving DecidableEq, Repr

/-- Why bytes are no instruction of a port. -/
inductive DecodeError where
  /-- Fewer bytes than the row has on this port. -/
  | tooFewBytes
  deriving DecidableEq, Repr

/-- Read one instruction from the bytes of a port and return it with the bytes that follow (R90, R98). The SAMPLE
row's four bytes stand most significant first, as the table writes its 32-bit notation. -/
def decodeOn : Port → List Byte → Except DecodeError (Instr × List Byte)
  | .command, b :: rest => .ok (decodeByte b, rest)
  | .wr, b :: rest => .ok (.wr b, rest)
  | .adv, c :: rest => .ok (.adv c, rest)
  | .sync, rest => .ok (.sync, rest)
  | .tick, rest => .ok (.tick, rest)
  | .sample, s0 :: s1 :: s2 :: s3 :: rest => .ok (.sample s0 s1 s2 s3, rest)
  | .command, [] => .error .tooFewBytes
  | .wr, [] => .error .tooFewBytes
  | .adv, [] => .error .tooFewBytes
  | .sample, [] => .error .tooFewBytes
  | .sample, [_] => .error .tooFewBytes
  | .sample, [_, _] => .error .tooFewBytes
  | .sample, [_, _, _] => .error .tooFewBytes

/-- What the decoder reads from an instruction whose bits are `w`, numbered as opcode_table.json numbers them:
eight bits are a command byte, thirty-two the SAMPLE row's notation. No other row has a width. -/
def decodeTableWord (nbits w : Nat) : Option Instr :=
  if nbits = 8 then some (decodeByte (BitVec.ofNat 8 w))
  else if nbits = 32 then
    some (.sample (BitVec.ofNat 8 (w >>> 24)) (BitVec.ofNat 8 (w >>> 16)) (BitVec.ofNat 8 (w >>> 8))
      (BitVec.ofNat 8 w))
  else none

/-! ## Encoding (R95, R99: ignored bits are written as 0) -/

/-- Format L: `1 ch ty d4` (R91). -/
def formatL (ch : Fin 4) (ty : RegType) (d4 : Nibble) : Byte :=
  1#1 ++ BitVec.ofFin (w := 2) ch ++ (match ty with | .tone => 0#1 | .volume => 1#1) ++ d4

/-- Format D: `0 x d6` with the ignored bit 0 (R92). -/
def formatD (d6 : BitVec 6) : Byte := 0#1 ++ 0#1 ++ d6

/-- The noise nibble `x m rr` with the ignored bit 0 (R93). -/
def noiseNibble (m : BitVec 1) (r : BitVec 2) : Nibble := 0#1 ++ m ++ r

/-- The byte of a command (R95, R99). -/
def encodeCommand : Command → Byte
  | .ltone c n => formatL (c.castLE (by decide)) .tone n
  | .lvol c v => formatL c .volume v
  | .lnoise m r => formatL 3 .tone (noiseNibble m r)
  | .data d => formatD d

/-- The bytes of an instruction on the port it belongs to: a command's byte, a port's data lines, the bytes of an
output, the WR bytes of a pseudo-instruction's expansion (R95, R98, R99, R100). Rows without data lines have none;
a PIXWR's and a RESET's operands have no bit encoding (R98, R250). -/
def encode : Instr → List Byte
  | .ltone0 n => [encodeCommand (.ltone 0 n)]
  | .ltone1 n => [encodeCommand (.ltone 1 n)]
  | .ltone2 n => [encodeCommand (.ltone 2 n)]
  | .lnoise m r => [encodeCommand (.lnoise m r)]
  | .lvol0 v => [encodeCommand (.lvol 0 v)]
  | .lvol1 v => [encodeCommand (.lvol 1 v)]
  | .lvol2 v => [encodeCommand (.lvol 2 v)]
  | .lvol3 v => [encodeCommand (.lvol 3 v)]
  | .data d => [encodeCommand (.data d)]
  | .dataTone d => [formatD d]
  | .dataVol v => [formatD (0#2 ++ v)]
  | .dataNoise m r => [formatD (0#2 ++ noiseNibble m r)]
  | .wr b => [b]
  | .adv c => [c]
  | .sync => []
  | .tick => []
  | .pixwr _ _ _ => []
  | .wake => []
  | .step => []
  | .sleep => []
  | .txstart => []
  | .txpart => []
  | .txend => []
  | .reset _ => []
  | .sample s0 s1 s2 s3 => [s0, s1, s2, s3]
  | .tx bytes _ => bytes
  | .tone c p => [encodeCommand (.ltone c (p.extractLsb' 0 4)), encodeCommand (.data (p.extractLsb' 4 6))]
  | .vol c v => [encodeCommand (.lvol c v)]
  | .silence => [encodeCommand (.lvol 0 15), encodeCommand (.lvol 1 15), encodeCommand (.lvol 2 15),
      encodeCommand (.lvol 3 15)]
  | .wrs b => [b]
  | .endframe => []

/-- The port on which an instruction's bytes are read back, where there is one: internal events, PIXWR, RESET, TX
and the pseudo-instructions have none (R98), and a DATA sub-form is a DATA byte (R96). -/
def Instr.port : Instr → Option Port
  | .ltone0 _ | .ltone1 _ | .ltone2 _ | .lnoise _ _ => some .command
  | .lvol0 _ | .lvol1 _ | .lvol2 _ | .lvol3 _ | .data _ => some .command
  | .wr _ => some .wr
  | .adv _ => some .adv
  | .sync => some .sync
  | .tick => some .tick
  | .sample _ _ _ _ => some .sample
  | .dataTone _ | .dataVol _ | .dataNoise _ _ => none
  | .pixwr _ _ _ | .wake | .step | .sleep | .txstart | .txpart | .txend => none
  | .reset _ | .tx _ _ => none
  | .tone _ _ | .vol _ _ | .silence | .wrs _ | .endframe => none

end Sys2Proof
end

