-- ==== Sys2Proof/Machine/HostPorts.lean ====
section
/-! DEFINITION. The transactions HOST performs: WR, ADV, SYNC on the PSG engine (R110 to R115), TICK and PIXWR on the
video buffer (R200 to R203). None waits (R7). -/

namespace Sys2Proof.Machine

/-- The effect of ENDFRAME's and HOST's TICK on the whole state. -/
def State.tick (s : State) : State := { s with video := s.video.tick }

/-- The effect of `SYNC` on the whole state (R114). -/
def State.sync (s : State) : State := { s with psg := s.psg.setSync true }

/-- The effect of `WR b` on the whole state (R110, R111). -/
def State.write (s : State) (b : Byte) : State := { s with psg := s.psg.write b }

/-- WR b (R110, R111). -/
def execWr (b : Byte) (s : State) : Host.Outcome State Fault Refusal := .next (s.write b)

/-- ADV c (R112). -/
def execAdv (c : Byte) (s : State) : Host.Outcome State Fault Refusal :=
  .next { s with psg := s.psg.addCredit c.toNat }

/-- SYNC (R114). -/
def execSync (s : State) : Host.Outcome State Fault Refusal := .next s.sync

/-- TICK (R202, R203). -/
def execTick (s : State) : Host.Outcome State Fault Refusal := .next s.tick

/-- PIXWR i, o, v (R200): payload offset `o` is real offset `o + 1`, in the buffer that is drawable now; refused out
of range (R14, U15). -/
def execPixwr (i o : Nat) (v : Byte) (s : State) : Host.Outcome State Fault Refusal :=
  if i < s.cfg.nParts ∧ o < s.cfg.partSize then
    .next { s with video := s.video.memWrite s.cfg s.video.draw i (o + 1) v }
  else .refused .pixelOutOfRange

end Sys2Proof.Machine
end

