-- ==== Sys2Proof/Machine/Assembler.lean ====
section
/-! DEFINITION. The assembler (R99, R100): the HOST events a program line stands for, and the meanings of the
pseudo-instructions, their expansions performed one after another by HOST. Log 11. -/

namespace Sys2Proof.Machine

/-- The HOST events one program line stands for (R99, R100): a command's line is the WR of its byte. A line that is
no HOST event stands for none. -/
def hostEvents : Instr → List Instr
  | .ltone0 n => [.wr (encodeCommand (.ltone 0 n))]
  | .ltone1 n => [.wr (encodeCommand (.ltone 1 n))]
  | .ltone2 n => [.wr (encodeCommand (.ltone 2 n))]
  | .lnoise m r => [.wr (encodeCommand (.lnoise m r))]
  | .lvol0 v => [.wr (encodeCommand (.lvol 0 v))]
  | .lvol1 v => [.wr (encodeCommand (.lvol 1 v))]
  | .lvol2 v => [.wr (encodeCommand (.lvol 2 v))]
  | .lvol3 v => [.wr (encodeCommand (.lvol 3 v))]
  | .data d => [.wr (encodeCommand (.data d))]
  | .wr b => [.wr b]
  | .adv c => [.adv c]
  | .sync => [.sync]
  | .tick => [.tick]
  | .pixwr i o v => [.pixwr i o v]
  | .reset c => [.reset c]
  | .tone c p => [.wr (encodeCommand (.ltone c (p.extractLsb' 0 4))), .wr (encodeCommand (.data (p.extractLsb' 4 6)))]
  | .vol c v => [.wr (encodeCommand (.lvol c v))]
  | .silence => [.wr (encodeCommand (.lvol 0 15)), .wr (encodeCommand (.lvol 1 15)),
      .wr (encodeCommand (.lvol 2 15)), .wr (encodeCommand (.lvol 3 15))]
  | .wrs b => [.wr b, .sync]
  | .endframe => [.sync, .tick]
  | .dataTone _ | .dataVol _ | .dataNoise _ _ => []
  | .wake | .step | .sleep | .txstart | .txpart | .txend => []
  | .sample _ _ _ _ | .tx _ _ => []

/-- TONE c, p (R100): two writes, the low nibble first. -/
def execTone (c : Fin 3) (p : BitVec 10) (s : State) : Host.Outcome State Fault Refusal :=
  .next ((s.write (encodeCommand (.ltone c (p.extractLsb' 0 4)))).write (encodeCommand (.data (p.extractLsb' 4 6))))

/-- VOL c, v (R100). -/
def execVol (c : Fin 4) (v : Nibble) (s : State) : Host.Outcome State Fault Refusal :=
  .next (s.write (encodeCommand (.lvol c v)))

/-- SILENCE (R100): volume 15 on all four channels. -/
def execSilence (s : State) : Host.Outcome State Fault Refusal :=
  .next ((((s.write (encodeCommand (.lvol 0 15))).write (encodeCommand (.lvol 1 15))).write
    (encodeCommand (.lvol 2 15))).write (encodeCommand (.lvol 3 15)))

/-- WRS b (R100): the write and its SYNC, the source's calling convention (R115). -/
def execWrs (b : Byte) (s : State) : Host.Outcome State Fault Refusal := .next (s.write b).sync

/-- ENDFRAME (R100): SYNC and TICK. -/
def execEndframe (s : State) : Host.Outcome State Fault Refusal := .next s.sync.tick

end Sys2Proof.Machine
end

