-- ==== Sys2Proof/Machine/Commands.lean ====
section
/-! DEFINITION. The register commands (R175 to R188): LATCH and DATA, executed as item 1 of STEP. No command faults
or is illegal, and none touches a counter, a polarity, the credit or the queue (R175). -/

namespace Sys2Proof.Machine

/-! ## The shared effects -/

/-- LTONE c, n (R177): latch (c, tone), low nibble of the period. -/
def Psg.latchTone (p : Psg) (c : Fin 3) (n : Nibble) : Psg :=
  (p.setLatch (c.castLE (by decide)) .tone).setPeriod c (periodLatch p.period[c] n)

/-- LVOL c, v (R178): latch (c, volume), the volume. -/
def Psg.latchVol (p : Psg) (c : Fin 4) (v : Nibble) : Psg := (p.setLatch c .volume).setVol c v

/-- LNOISE m, r (R179): latch (3, tone), the noise write. -/
def Psg.latchNoise (p : Psg) (m : BitVec 1) (r : BitVec 2) : Psg := (p.setLatch 3 .tone).noiseWrite m r

/-- `DataTone(c, d)` (R184). -/
def Psg.dataTone (cfg : Config) (p : Psg) (c : Fin 3) (d : BitVec 6) : Psg :=
  p.setPeriod c (periodData cfg p.period[c] d)

/-- `DataWrite` (R183): the register the latch selects now; the latch stays. -/
def Psg.dataWrite (cfg : Config) (p : Psg) (d : BitVec 6) : Psg :=
  match p.latchType with
  | .volume => p.setVol p.latchCh (lowNibble d)
  | .tone =>
    match toneChannel p.latchCh with
    | some c => p.dataTone cfg c d
    | none => p.noiseWrite (nibbleMode (lowNibble d)) (nibbleRate (lowNibble d))

/-- `Dispatch` on a decoded command (R124, R176, R183). -/
def Psg.runCommand (cfg : Config) (p : Psg) : Command → Psg
  | .ltone c n => p.latchTone c n
  | .lvol c v => p.latchVol c v
  | .lnoise m r => p.latchNoise m r
  | .data d => p.dataWrite cfg d

/-- Item 1 of STEP (R122, R123): pop at most one byte and execute it; with an empty queue nothing. -/
def Psg.dequeue (cfg : Config) (p : Psg) : Psg :=
  match p.q with
  | [] => p
  | b :: _ => p.qDrop.runCommand cfg (decodeCommand b)

/-! ## The meanings -/

/-- LTONE0 (R177). -/
def execLtone0 (n : Nibble) (s : State) : Host.Outcome State Fault Refusal :=
  .next { s with psg := s.psg.latchTone 0 n }

/-- LTONE1 (R177). -/
def execLtone1 (n : Nibble) (s : State) : Host.Outcome State Fault Refusal :=
  .next { s with psg := s.psg.latchTone 1 n }

/-- LTONE2 (R177). -/
def execLtone2 (n : Nibble) (s : State) : Host.Outcome State Fault Refusal :=
  .next { s with psg := s.psg.latchTone 2 n }

/-- LNOISE (R179, R181). -/
def execLnoise (m : BitVec 1) (r : BitVec 2) (s : State) : Host.Outcome State Fault Refusal :=
  .next { s with psg := s.psg.latchNoise m r }

/-- LVOL0 (R178). -/
def execLvol0 (v : Nibble) (s : State) : Host.Outcome State Fault Refusal :=
  .next { s with psg := s.psg.latchVol 0 v }

/-- LVOL1 (R178). -/
def execLvol1 (v : Nibble) (s : State) : Host.Outcome State Fault Refusal :=
  .next { s with psg := s.psg.latchVol 1 v }

/-- LVOL2 (R178). -/
def execLvol2 (v : Nibble) (s : State) : Host.Outcome State Fault Refusal :=
  .next { s with psg := s.psg.latchVol 2 v }

/-- LVOL3 (R178). -/
def execLvol3 (v : Nibble) (s : State) : Host.Outcome State Fault Refusal :=
  .next { s with psg := s.psg.latchVol 3 v }

/-- DATA (R183). -/
def execData (d : BitVec 6) (s : State) : Host.Outcome State Fault Refusal :=
  .next { s with psg := s.psg.dataWrite s.cfg d }

/-- DATA.TONE (R184): the row exists while the latch is at (0..2, tone). -/
def execDataTone (d : BitVec 6) (s : State) : Host.Outcome State Fault Refusal :=
  match s.psg.latchType, toneChannel s.psg.latchCh with
  | .tone, some c => .next { s with psg := s.psg.dataTone s.cfg c d }
  | .tone, none => .refused .notSelectedByLatch
  | .volume, _ => .refused .notSelectedByLatch

/-- DATA.VOL (R185): the row exists while the latch is at a volume. -/
def execDataVol (v : Nibble) (s : State) : Host.Outcome State Fault Refusal :=
  match s.psg.latchType with
  | .volume => .next { s with psg := s.psg.setVol s.psg.latchCh v }
  | .tone => .refused .notSelectedByLatch

/-- DATA.NOISE (R186): the row exists while the latch is at (3, tone). -/
def execDataNoise (m : BitVec 1) (r : BitVec 2) (s : State) : Host.Outcome State Fault Refusal :=
  match s.psg.latchType, toneChannel s.psg.latchCh with
  | .tone, none => .next { s with psg := s.psg.noiseWrite m r }
  | .tone, some _ => .refused .notSelectedByLatch
  | .volume, _ => .refused .notSelectedByLatch

end Sys2Proof.Machine
end

