-- ==== Sys2Proof/Machine/Generators.lean ====
section
/-! DEFINITION. What a step does after its command: the tone generators, the noise generator, the samples and the
strobe divider (R135 to R169). -/

namespace Sys2Proof.Machine

/-- `ToneAdvance(c)` (R136): guard, decrement, and on a crossing reload and toggle but for PCM mode. -/
def Psg.toneAdvance (p : Psg) (c : Fin 3) : Psg :=
  if toneGuard p.tcnt[c] p.period[c] then
    if crossed (p.tcnt[c] - 16) then
      p.setTone c (scaledPeriod p.period[c]) (crossedPolarity p.period[c] p.tpol[c])
    else p.setTone c (p.tcnt[c] - 16) p.tpol[c]
  else p

/-- Item 2 of STEP: the three tone generators (R122, R125). -/
def Psg.tonesAdvance (p : Psg) : Psg := ((p.toneAdvance 0).toneAdvance 1).toneAdvance 2

/-- `NoiseReload()` (R147): `(16 << nrate) × NOISE_MULT`, or the tone-2 period scaled in external-clock mode. -/
def noiseReload (c : Config) (p : Psg) : Int :=
  if p.nrate = 3 then scaledPeriod p.period[2] else ((16 <<< p.nrate.toNat) * c.noiseMult : Nat)

/-- `LfsrClock()` (R149): the bit shifted out becomes the polarity. -/
def Psg.lfsrClock (c : Config) (p : Psg) : Psg :=
  p.setLfsr (lfsrShift (feedback c p.nmode p.lfsr) p.lfsr) p.lfsr[0]

/-- `NoiseAdvance()` (R146): unconditional decrement (R152); a crossing reloads and toggles the flip-flop, and the
LFSR is clocked when the flip-flop has become 1 (R148). -/
def Psg.noiseAdvance (c : Config) (p : Psg) : Psg :=
  if crossed (p.ncnt - 16) then
    if p.nff then p.setNoiseCount (noiseReload c p) false
    else (p.setNoiseCount (noiseReload c p) true).lfsrClock c
  else p.setNoiseCount (p.ncnt - 16) p.nff

/-- `Samples()` (R161 to R163). -/
def Psg.samples (c : Config) (p : Psg) : Strobe where
  s0 := gatedSample c.chEnable[0] p.tpol[0] p.vol[0]
  s1 := gatedSample c.chEnable[1] p.tpol[1] p.vol[1]
  s2 := gatedSample c.chEnable[2] p.tpol[2] p.vol[2]
  s3 := gatedSample c.chEnable[3] p.npol p.vol[3]

/-- The loop of `StrobeDivider` (R165): while the accumulator reaches the period `P`, subtract it and emit. The
fuel bounds the passes; the accumulator itself is enough, since each pass subtracts `P ≥ 1`. -/
def strobeLoop (P : Nat) (x : Strobe) : Nat → Nat → List Strobe → Nat × List Strobe
  | 0, acc, out => (acc, out)
  | fuel + 1, acc, out => if P ≤ acc then strobeLoop P x fuel (acc - P) (out ++ [x]) else (acc, out)

/-- `StrobeDivider(x)` (R165): add 16 and run the loop; the new accumulator and the strobes emitted. -/
def strobeDivider (c : Config) (acc : Nat) (x : Strobe) : Nat × List Strobe :=
  strobeLoop c.callbackPeriod x (acc + 16) (acc + 16) []

/-- Items 2 and 3 of STEP (R122): every generator advances once (R125). -/
def Psg.generators (c : Config) (p : Psg) : Psg := (p.tonesAdvance).noiseAdvance c

/-- Items 2 to 6 of STEP on the whole state, from the PSG state the command left (R122). -/
def State.afterCommand (s : State) : State :=
  let p := s.psg.generators s.cfg
  let d := strobeDivider s.cfg p.cbAcc (p.samples s.cfg)
  { s with psg := (p.setCbAcc d.1).takeCredit, out := s.out.emitSamples d.2 }

end Sys2Proof.Machine
end

