-- ==== Sys2Proof/Machine/PsgWorker.lean ====
section
/-! DEFINITION. The events of the PSG worker: WAKE, STEP, SLEEP (R120 to R130). -/

namespace Sys2Proof.Machine

/-- WAKE is enabled (R120). -/
def Psg.wakeEnabled (p : Psg) : Bool := decide (p.worker = .idle) && p.syncPending

/-- STEP is enabled (R122). -/
def Psg.stepEnabled (p : Psg) : Bool := decide (p.worker = .draining) && decide (16 ≤ p.credit)

/-- SLEEP is enabled (R128). -/
def Psg.sleepEnabled (p : Psg) : Bool := decide (p.worker = .draining) && decide (p.credit < 16)

/-- WAKE (R120). -/
def execWake (s : State) : Host.Outcome State Fault Refusal :=
  if s.psg.wakeEnabled then .next { s with psg := (s.psg.setSync false).setWorker .draining }
  else .refused .notEnabled

/-- STEP (R122): item 1, the command; then items 2 to 6. With CALLBACK_PERIOD = 0 the strobe loop would not end
and the spec gives no meaning (U17). -/
def execStep (s : State) : Host.Outcome State Fault Refusal :=
  if s.psg.stepEnabled then
    if s.cfg.callbackPeriod = 0 then .refused .illegalConfiguration
    else .next (State.afterCommand { s with psg := s.psg.dequeue s.cfg })
  else .refused .notEnabled

/-- SLEEP (R128). -/
def execSleep (s : State) : Host.Outcome State Fault Refusal :=
  if s.psg.sleepEnabled then .next { s with psg := s.psg.setWorker .idle }
  else .refused .notEnabled

end Sys2Proof.Machine
end

