-- ==== Sys2Proof/Machine/VideoWorker.lean ====
section
/-! DEFINITION. The events of the video transmit worker: TXSTART, TXPART, TXEND (R204 to R206). -/

namespace Sys2Proof.Machine

/-- TXSTART (R204): enabled with no transmission active and the slot occupied. -/
def execTxstart (s : State) : Host.Outcome State Fault Refusal :=
  match s.video.txActive, s.video.slot with
  | false, some b => .next { s with video := s.video.takeSlot b }
  | false, none => .refused .notEnabled
  | true, _ => .refused .notEnabled

/-- TXPART is enabled (R205). -/
def Video.partEnabled (c : Config) (v : Video) : Bool := v.txActive && decide (v.txPart < c.partCount)

/-- TXEND is enabled (R206). -/
def Video.endEnabled (c : Config) (v : Video) : Bool := v.txActive && decide (v.txPart = c.partCount)

/-- TXPART (R205): one transfer of the whole part, prefix byte first. -/
def execTxpart (s : State) : Host.Outcome State Fault Refusal :=
  if s.video.partEnabled s.cfg then
    .next { s with
      video := s.video.nextPart
      out := s.out.emitTx ⟨s.video.partBytes s.cfg s.video.txBuf s.video.txPart, s.cfg.partSize + 1⟩ }
  else .refused .notEnabled

/-- TXEND (R206). -/
def execTxend (s : State) : Host.Outcome State Fault Refusal :=
  if s.video.endEnabled s.cfg then .next { s with video := s.video.endTx }
  else .refused .notEnabled

end Sys2Proof.Machine
end

