-- ==== Sys2Proof/Machine/Schedule.lean ====
section
/-! DEFINITION. Which event happens next (R7, R73, R231): whose turn it is, and the event that agent performs. The
schedule is data as far as `env.schedule` reaches and a free value after it. Log 3. -/

namespace Sys2Proof.Machine

/-- What a turn comes to. -/
inductive Turn where
  /-- The event `i` happens in the state `s`. -/
  | event (i : Instr) (s : State)
  /-- The agent has no enabled event: nothing happens and `s` is the state (R240). -/
  | blocked (s : State)
  /-- HOST's program asks for what the spec gives no meaning. -/
  | refused (r : Refusal)
  deriving DecidableEq, Repr

/-- The agent whose turn it is. -/
def State.agent (s : State) : Agent :=
  match s.env.schedule with
  | a :: _ => a
  | [] => Config.freeAgent s.env.turn

/-- The state with this turn taken off the schedule. -/
def State.takeTurn (s : State) : State :=
  match s.env.schedule with
  | _ :: rest => { s with env := { s.env with schedule := rest } }
  | [] => { s with env := { s.env with turn := s.env.turn + 1 } }

/-- The state with HOST's program `p`. -/
def State.setProgram (s : State) (p : List Instr) : State := { s with env := { s.env with program := p } }

/-- May HOST perform this event now? Before RESET nothing but RESET (R250). -/
def State.admits (s : State) : Instr → Bool
  | .reset _ => true
  | _ => s.resetDone

/-- HOST's turn: the first event of the first line of its program; the line's other events stay in front (R99). -/
def State.hostTurn (s : State) : Turn :=
  match s.env.program with
  | [] => .blocked s
  | line :: rest =>
    match hostEvents line with
    | [] => .refused .notAHostEvent
    | e :: more => if s.admits e then .event e (s.setProgram (more ++ rest)) else .refused .beforeReset

/-- PSGW's turn: its one enabled event, if any (R120, R122, R128). -/
def State.psgwTurn (s : State) : Turn :=
  if s.psg.wakeEnabled then .event .wake s
  else if s.psg.stepEnabled then .event .step s
  else if s.psg.sleepEnabled then .event .sleep s
  else .blocked s

/-- VIDW's turn: its one enabled event, if any (R204, R205, R206). -/
def State.vidwTurn (s : State) : Turn :=
  if s.video.txActive then
    if s.video.partEnabled s.cfg then .event .txpart s
    else if s.video.endEnabled s.cfg then .event .txend s
    else .blocked s
  else if s.video.slot.isSome then .event .txstart s
  else .blocked s

/-- The turn of the machine: the workers have no event before RESET (R250). -/
def State.turn (s : State) : Turn :=
  match s.agent with
  | .host => s.takeTurn.hostTurn
  | .psgw => if s.resetDone then s.takeTurn.psgwTurn else .blocked s.takeTurn
  | .vidw => if s.resetDone then s.takeTurn.vidwTurn else .blocked s.takeTurn

/-- The state in which the next step is a STEP of PSGW that pops the byte `b` and executes it: `b` is the head of
the queue, PSGW drains with one step's credit, and it is PSGW's turn. Log 4. -/
def State.withCommandByte (s : State) (b : Byte) : State :=
  { s with
    resetDone := true
    psg := { s.psg with q := b :: s.psg.q.tail, worker := .draining, credit := max s.psg.credit 16 }
    env := { s.env with schedule := .psgw :: s.env.schedule } }

end Sys2Proof.Machine
end

