-- ==== Sys2Proof/Machine/Dispatch.lean ====
section
/-! DEFINITION. One arm per row of opcode_table.json. -/

namespace Sys2Proof.Machine

def exec (i : Instr) (s : State) : Host.Outcome State Fault Refusal :=
  match i with
  | .ltone0 n => Sys2Proof.Machine.execLtone0 n s
  | .ltone1 n => Sys2Proof.Machine.execLtone1 n s
  | .ltone2 n => Sys2Proof.Machine.execLtone2 n s
  | .lnoise m r => Sys2Proof.Machine.execLnoise m r s
  | .lvol0 v => Sys2Proof.Machine.execLvol0 v s
  | .lvol1 v => Sys2Proof.Machine.execLvol1 v s
  | .lvol2 v => Sys2Proof.Machine.execLvol2 v s
  | .lvol3 v => Sys2Proof.Machine.execLvol3 v s
  | .data d => Sys2Proof.Machine.execData d s
  | .dataTone d => Sys2Proof.Machine.execDataTone d s
  | .dataVol v => Sys2Proof.Machine.execDataVol v s
  | .dataNoise m r => Sys2Proof.Machine.execDataNoise m r s
  | .wr b => Sys2Proof.Machine.execWr b s
  | .adv c => Sys2Proof.Machine.execAdv c s
  | .sync => Sys2Proof.Machine.execSync s
  | .tick => Sys2Proof.Machine.execTick s
  | .pixwr part o v => Sys2Proof.Machine.execPixwr part o v s
  | .wake => Sys2Proof.Machine.execWake s
  | .step => Sys2Proof.Machine.execStep s
  | .sleep => Sys2Proof.Machine.execSleep s
  | .txstart => Sys2Proof.Machine.execTxstart s
  | .txpart => Sys2Proof.Machine.execTxpart s
  | .txend => Sys2Proof.Machine.execTxend s
  | .reset c => Sys2Proof.Machine.execReset c s
  | .sample s0 s1 s2 s3 => Sys2Proof.Machine.execSample s0 s1 s2 s3 s
  | .tx bytes len => Sys2Proof.Machine.execTx bytes len s
  | .tone c p => Sys2Proof.Machine.execTone c p s
  | .vol c v => Sys2Proof.Machine.execVol c v s
  | .silence => Sys2Proof.Machine.execSilence s
  | .wrs b => Sys2Proof.Machine.execWrs b s
  | .endframe => Sys2Proof.Machine.execEndframe s

end Sys2Proof.Machine
end

