-- ==== Sys2Proof/Machine/Step.lean ====
section
/-! DEFINITION. One step of the machine: one turn of one agent, so at most one atomic event (R15, R73). -/

namespace Sys2Proof.Machine

/-- One turn: the event of the agent whose turn it is, or nothing where that agent is blocked. -/
def step (s : State) : Host.Outcome State Fault Refusal :=
  match s.turn with
  | .event i t => exec i t
  | .blocked t => .next t
  | .refused r => .refused r

/-- The state whose next step fetches and executes the command byte `w`: a command has one byte, the low byte of
`w`, whatever the width. Log 4. -/
def State.withFetchWord (s : State) (_nbits w : Nat) : State := s.withCommandByte (BitVec.ofNat 8 w)

end Sys2Proof.Machine
end

