-- ==== Sys2Proof/Safety.lean ====
section
/-! DEFINITION. What claims are stated with: executions as sequences of events (R73), what such a sequence adds up to,
the two groups of events (R20), quiescent states (R262), and the invariants of R48, R144, R151, R156, R201, R208. -/

namespace Sys2Proof.Machine

/-! ## Executions (R73) -/

/-- The events of a list one after another, stopping at the first that stops. -/
def runEvents : List Instr → State → Host.Outcome State Fault Refusal
  | [], s => .next s
  | i :: is, s =>
    match exec i s with
    | .next t => runEvents is t
    | .fault r => .fault r
    | .refused r => .refused r

/-- How many STEP events a list holds (R127). -/
def stepCount (is : List Instr) : Nat := is.count .step

/-- The credit the ADV events of a list add (R112). -/
def advTotal : List Instr → Nat
  | [] => 0
  | .adv c :: is => c.toNat + advTotal is
  | _ :: is => advTotal is

/-- The whole transmission of one frame of `n` parts by VIDW: TXSTART, TXPART × n, TXEND (R132). -/
def transmission (n : Nat) : List Instr := .txstart :: List.replicate n .txpart ++ [.txend]

/-! ## The two groups (R20) -/

/-- The commands and the events that belong to the PSG engine. -/
def isPsgEvent : Instr → Bool
  | .ltone0 _ | .ltone1 _ | .ltone2 _ | .lnoise _ _ => true
  | .lvol0 _ | .lvol1 _ | .lvol2 _ | .lvol3 _ => true
  | .data _ | .dataTone _ | .dataVol _ | .dataNoise _ _ => true
  | .wr _ | .adv _ | .sync | .wake | .step | .sleep => true
  | .tone _ _ | .vol _ _ | .silence | .wrs _ => true
  | .tick | .pixwr _ _ _ | .txstart | .txpart | .txend => false
  | .reset _ | .sample _ _ _ _ | .tx _ _ | .endframe => false

/-- The events that belong to the video buffer. -/
def isVideoEvent : Instr → Bool
  | .tick | .pixwr _ _ _ | .txstart | .txpart | .txend => true
  | .ltone0 _ | .ltone1 _ | .ltone2 _ | .lnoise _ _ => false
  | .lvol0 _ | .lvol1 _ | .lvol2 _ | .lvol3 _ => false
  | .data _ | .dataTone _ | .dataVol _ | .dataNoise _ _ => false
  | .wr _ | .adv _ | .sync | .wake | .step | .sleep => false
  | .tone _ _ | .vol _ _ | .silence | .wrs _ => false
  | .reset _ | .sample _ _ _ _ | .tx _ _ | .endframe => false

/-! ## Program lines (R99) -/

/-- What may stand on a line of HOST's program: commands, HOST's transactions, RESET and the pseudo-instructions
(R98, R99, R100, R250). -/
def isProgramLine : Instr → Bool
  | .ltone0 _ | .ltone1 _ | .ltone2 _ | .lnoise _ _ => true
  | .lvol0 _ | .lvol1 _ | .lvol2 _ | .lvol3 _ | .data _ => true
  | .wr _ | .adv _ | .sync | .tick | .pixwr _ _ _ | .reset _ => true
  | .tone _ _ | .vol _ _ | .silence | .wrs _ | .endframe => true
  | .dataTone _ | .dataVol _ | .dataNoise _ _ => false
  | .wake | .step | .sleep | .txstart | .txpart | .txend => false
  | .sample _ _ _ _ | .tx _ _ => false

/-! ## Quiescence (R262) -/

/-- No PSGW event and no VIDW event is enabled (R262). The queue need not be empty. -/
def State.quiescent (s : State) : Bool :=
  decide (s.psg.worker = .idle) && !s.psg.syncPending && !s.video.txActive && s.video.slot.isNone

/-! ## A frame in flight (R207) -/

/-- The frame in flight is in buffer `b`: handed over and not yet taken (the slot holds it, from the accepted TICK to
TXSTART), or in transmission (from TXSTART to TXEND). -/
abbrev Video.sends (v : Video) (b : Fin 2) : Prop := v.slot = some b ∨ (v.txActive = true ∧ v.txBuf = b)

/-! ## Invariants -/

/-- The PSG invariants under configuration `c` (R48 (a), (c), (d); R144; R151; R156). -/
structure Psg.Inv (c : Config) (p : Psg) : Prop where
  queueBound : p.q.length ≤ 1024
  accBound : p.cbAcc < c.callbackPeriod
  toneBound : ∀ k : Fin 3, 0 ≤ p.tcnt[k] ∧ p.tcnt[k] ≤ 16368
  noiseBound : 0 ≤ p.ncnt ∧ p.ncnt ≤ 16368
  lfsrLive : p.lfsr ≠ 0

/-- The video invariants under configuration `c` (R45; R48 (e), (f); R201; R208; and the canonical form of the part
memories). -/
structure Video.Inv (c : Config) (v : Video) : Prop where
  memForm : Memory.wf c v.mem
  prefixes : ∀ (b : Fin 2) (i : Nat), i < c.nParts → v.memRead c b i 0 = c.prefixTag
  oneOwner : ¬ (v.slot.isSome = true ∧ v.txActive = true)
  slotOther : ∀ b, v.slot = some b → b = 1 - v.draw
  txOther : v.txActive = true → v.txBuf = 1 - v.draw
  partBound : v.txPart ≤ c.partCount

/-- The invariant of every reachable state (R48). -/
structure State.Inv (s : State) : Prop where
  done : s.resetDone = true
  legal : s.cfg.Legal
  psg : s.psg.Inv s.cfg
  video : s.video.Inv s.cfg

end Sys2Proof.Machine
end

