-- ==== Sys2Proof/WellFormed.lean ====
section
/-! DEFINITION. Which instructions are well formed as syntax. Most operands have the type of their field and cannot
be ill formed; a RESET carries a configuration, which must be legal (R14, R250), and a TX carries its length beside
its bytes, which must agree (R13, R98). Whether a PIXWR is in range depends on the geometry latched at RESET, so its
meaning checks it (R200). -/

namespace Sys2Proof

/-- The check of R14 and R98 on an instruction's own operands. -/
def Instr.wellFormed : Instr → Bool
  | .reset c => decide c.Legal
  | .tx bytes len => decide (len = bytes.length)
  | .ltone0 _ | .ltone1 _ | .ltone2 _ | .lnoise _ _ => true
  | .lvol0 _ | .lvol1 _ | .lvol2 _ | .lvol3 _ => true
  | .data _ | .dataTone _ | .dataVol _ | .dataNoise _ _ => true
  | .wr _ | .adv _ | .sync | .tick | .pixwr _ _ _ => true
  | .wake | .step | .sleep | .txstart | .txpart | .txend => true
  | .sample _ _ _ _ => true
  | .tone _ _ | .vol _ _ | .silence | .wrs _ | .endframe => true

end Sys2Proof
end

