-- ==== Sys2Proof/Certificates/Slice0/Obligations.lean ====
section
/-! DEFINITION. The statements for the provers. Each docstring names the rules of spec/ a statement formalises and,
where it rests on a choice of the model, the log entry. -/

open Sys2Proof Sys2Proof.Machine

/-! ## Register commands -/

/-- R177. LTONE c, n (LTONE0, LTONE1, LTONE2) completes in every state: it latches (c, tone), replaces the low nibble
of period[c], keeps bits 9 to 4 and the other periods, and changes nothing else. Its byte is 0x80 | c << 5 | n
(log 13). -/
def Obligations.LtoneLoadsLowNibble : Prop :=
  ∀ (s : State) (c : Fin 3) (n : Nibble), ∃ t : State,
    exec (Command.ltone c n).toInstr s = .next t ∧
    t.psg.latchCh.val = c.val ∧ t.psg.latchType = .tone ∧
    t.psg.period[c].extractLsb' 0 4 = n ∧
    t.psg.period[c].extractLsb' 4 6 = s.psg.period[c].extractLsb' 4 6 ∧
    (∀ d : Fin 3, d ≠ c → t.psg.period[d] = s.psg.period[d]) ∧
    t = { s with psg := { s.psg with
      latchCh := t.psg.latchCh, latchType := t.psg.latchType, period := t.psg.period } } ∧
    encode (Command.ltone c n).toInstr = [0x80#8 ||| (BitVec.ofNat 8 c.val <<< 5) ||| n.setWidth 8]

/-- R178. LVOL c, v (LVOL0 to LVOL3) completes in every state: it latches (c, volume), writes vol[c], keeps the other
volumes, and changes nothing else. Its byte is 0x90 | c << 5 | v (log 13). -/
def Obligations.LvolLoadsVolume : Prop :=
  ∀ (s : State) (c : Fin 4) (v : Nibble), ∃ t : State,
    exec (Command.lvol c v).toInstr s = .next t ∧
    t.psg.latchCh = c ∧ t.psg.latchType = .volume ∧ t.psg.vol[c] = v ∧
    (∀ d : Fin 4, d ≠ c → t.psg.vol[d] = s.psg.vol[d]) ∧
    t = { s with psg := { s.psg with
      latchCh := t.psg.latchCh, latchType := t.psg.latchType, vol := t.psg.vol } } ∧
    encode (Command.lvol c v).toInstr = [0x90#8 ||| (BitVec.ofNat 8 c.val <<< 5) ||| v.setWidth 8]

/-- R179, R181, R154. LNOISE m, r completes in every state: latch (3, tone), LFSR to 0x8000, rate and mode loaded;
ncnt, nff, npol and all else stay. Its byte is 0xE0 | m << 2 | r (log 13).
That ncnt, nff and npol stay is the spec's decision D12, log 17. -/
def Obligations.LnoiseRestartsLfsr : Prop :=
  ∀ (s : State) (m : BitVec 1) (r : BitVec 2),
    exec (.lnoise m r) s = .next { s with psg := { s.psg with
      latchCh := 3, latchType := .tone, lfsr := 0x8000, nrate := r, nmode := m } } ∧
    encode (.lnoise m r) = [0xE0#8 ||| (m.setWidth 8 <<< 2) ||| r.setWidth 8]

/-- R183, R184, R185, R181. DATA d completes in every state and writes the one register the latch selects now: the
volume, the tone period (TONE_DATA_WIDTH 6 or 4, log 15), or the noise control. The latch and all else stay.
Which nibble bits are rate and mode is log 13, that a noise write keeps ncnt, nff and npol is log 17. -/
def Obligations.DataWritesLatchedRegister : Prop :=
  ∀ (s : State) (d : BitVec 6), ∃ t : State,
    exec (.data d) s = .next t ∧
    (s.psg.latchType = .volume →
      t = { s with psg := { s.psg with vol := s.psg.vol.set s.psg.latchCh (d.extractLsb' 0 4) } }) ∧
    (∀ c : Fin 3, s.psg.latchType = .tone → s.psg.latchCh.val = c.val →
      t = { s with psg := { s.psg with period := t.psg.period } } ∧
      (∀ e : Fin 3, e ≠ c → t.psg.period[e] = s.psg.period[e]) ∧
      (s.cfg.toneDataWidth = 6 → t.psg.period[c] = d ++ s.psg.period[c].extractLsb' 0 4) ∧
      (s.cfg.toneDataWidth = 4 → t.psg.period[c] =
        s.psg.period[c].extractLsb' 8 2 ++ d.extractLsb' 0 4 ++ s.psg.period[c].extractLsb' 0 4)) ∧
    (s.psg.latchType = .tone → s.psg.latchCh = 3 →
      t = { s with psg := { s.psg with
        lfsr := 0x8000, nrate := d.extractLsb' 0 2, nmode := d.extractLsb' 2 1 } })

/-- R184. DATA.TONE d completes whenever the latch is at (c, tone): period[c] gets d in bits 9 to 4 (width 6) or
d[3:0] in bits 7 to 4 (width 4); bits 3 to 0, the other periods and all else stay.
The two widths are the spec's decision D4, log 15. -/
def Obligations.DataToneLoadsHighBits : Prop :=
  ∀ (s : State) (c : Fin 3) (d : BitVec 6), s.psg.latchType = .tone → s.psg.latchCh.val = c.val →
    ∃ t : State, exec (.dataTone d) s = .next t ∧
      t = { s with psg := { s.psg with period := t.psg.period } } ∧
      (∀ e : Fin 3, e ≠ c → t.psg.period[e] = s.psg.period[e]) ∧
      t.psg.period[c].extractLsb' 0 4 = s.psg.period[c].extractLsb' 0 4 ∧
      (s.cfg.toneDataWidth = 6 → t.psg.period[c].extractLsb' 4 6 = d) ∧
      (s.cfg.toneDataWidth = 4 → t.psg.period[c].extractLsb' 4 4 = d.extractLsb' 0 4 ∧
        t.psg.period[c].extractLsb' 8 2 = s.psg.period[c].extractLsb' 8 2)

/-- R185, R186, R181, R93. DATA d with the latch at a volume completes and writes d[3:0] to that volume, d[5:4] ignored; with the
latch at (3, tone) it completes and resets the LFSR and loads rate d[1:0] and mode d[2], as LNOISE does, d[5:3] ignored.
The rows DATA.VOL and DATA.NOISE do the same. Nothing else changes.
The places of rate and mode in the nibble are log 13, that a noise write keeps ncnt, nff and npol is log 17, and that the
sub-form rows run under their latch only is log 10. -/
def Obligations.DataVolAndNoiseForms : Prop :=
  (∀ (s : State) (d : BitVec 6), s.psg.latchType = .volume → exec (.data d) s =
    .next { s with psg := { s.psg with vol := s.psg.vol.set s.psg.latchCh (d.extractLsb' 0 4) } }) ∧
  (∀ (s : State) (v : Nibble), s.psg.latchType = .volume →
    exec (.dataVol v) s = .next { s with psg := { s.psg with vol := s.psg.vol.set s.psg.latchCh v } }) ∧
  (∀ (s : State) (d : BitVec 6), s.psg.latchType = .tone → s.psg.latchCh = 3 → exec (.data d) s =
    .next { s with psg := { s.psg with
      lfsr := 0x8000, nrate := d.extractLsb' 0 2, nmode := d.extractLsb' 2 1 } }) ∧
  (∀ (s : State) (m : BitVec 1) (r : BitVec 2), s.psg.latchType = .tone → s.psg.latchCh = 3 →
    exec (.dataNoise m r) s = .next { s with psg := { s.psg with lfsr := 0x8000, nrate := r, nmode := m } })

/-- R96, R183. A DATA byte executes as the sub-form the latch selects: DATA equals the resolved row in every state,
and the two other sub-form rows stop, refused by name (the model's choice, log 10). -/
def Obligations.DataIsItsSelectedForm : Prop :=
  ∀ (s : State) (d : BitVec 6),
    exec (.data d) s = exec (resolveData s.psg.latchCh s.psg.latchType d) s ∧
    (∀ i ∈ [Instr.dataTone d, .dataVol (lowNibble d), .dataNoise (nibbleMode (lowNibble d)) (nibbleRate (lowNibble d))],
      i ≠ resolveData s.psg.latchCh s.psg.latchType d → exec i s = .refused .notSelectedByLatch)

/-- R187. LTONE c, n then DATA d with d in 0..15: after the first, the low nibble is n and bits 9 to 4 are as before;
after the second, bits 7 to 4 are d, the low nibble is still n, and bits 9 and 8 are as before with width 4 and 0 with
width 6.
The two widths are the spec's decision D4, log 15. -/
def Obligations.LatchThenDataRoundTrip : Prop :=
  ∀ (s : State) (c : Fin 3) (n d : Nibble), ∃ t u : State,
    exec (Command.ltone c n).toInstr s = .next t ∧ exec (.data (0#2 ++ d)) t = .next u ∧
    t.psg.period[c].extractLsb' 0 4 = n ∧
    t.psg.period[c].extractLsb' 4 6 = s.psg.period[c].extractLsb' 4 6 ∧
    u.psg.period[c].extractLsb' 0 4 = n ∧
    (s.cfg.toneDataWidth = 6 ∨ s.cfg.toneDataWidth = 4 → u.psg.period[c].extractLsb' 4 4 = d) ∧
    (s.cfg.toneDataWidth = 4 → u.psg.period[c].extractLsb' 8 2 = s.psg.period[c].extractLsb' 8 2) ∧
    (s.cfg.toneDataWidth = 6 → u.psg.period[c].extractLsb' 8 2 = 0)

/-- R97, R175. Every one of the 256 byte values executes in every state, and writes nothing but the latch, the periods,
the volumes and the noise control with its LFSR reset: no counter, no polarity, no flip-flop, no credit, no
accumulator, no queue, no video state. -/
def Obligations.EveryByteIsACommandOnRegisters : Prop :=
  ∀ (s : State) (b : Byte), ∃ t : State, exec (decodeByte b) s = .next t ∧
    t = { s with psg := { s.psg with
      latchCh := t.psg.latchCh, latchType := t.psg.latchType, period := t.psg.period, vol := t.psg.vol,
      lfsr := t.psg.lfsr, nrate := t.psg.nrate, nmode := t.psg.nmode } } ∧
    (t.psg.lfsr = s.psg.lfsr ∨ t.psg.lfsr = 0x8000)

/-- R177 (corner case), R141. The byte of LTONE c, n at the head of the queue, a stopped channel c and a new period of
at least 8: the very STEP that executes the byte starts the channel, which reloads and toggles.
That count 0 is stopped (D9) and that the reload assigns period × 16 (D8) is log 16; the byte's layout is log 13. -/
def Obligations.PeriodWriteStartsChannelInSameStep : Prop :=
  ∀ (s : State) (c : Fin 3) (n : Nibble) (rest : List Byte),
    s.psg.worker = .draining → 16 ≤ s.psg.credit → s.cfg.callbackPeriod ≠ 0 →
    s.psg.q = encodeCommand (.ltone c n) :: rest → s.psg.tcnt[c] = 0 →
    8 ≤ (s.psg.period[c].extractLsb' 4 6 ++ n).toNat →
    ∃ t : State, exec .step s = .next t ∧ t.psg.q = rest ∧
      t.psg.period[c] = s.psg.period[c].extractLsb' 4 6 ++ n ∧
      t.psg.tcnt[c] = ((t.psg.period[c].toNat * 16 : Nat) : Int) ∧ t.psg.tpol[c] = !s.psg.tpol[c]

/-! ## Encoding -/

/-- R90 to R95, R98. Decode and encode agree: for every instruction that has bytes of its own on a port (the nine
commands, WR, ADV, SYNC, TICK and the SAMPLE notation), at every operand value, reading its bytes back on that port
gives it and leaves the bytes that follow.
The order of the SAMPLE bytes is log 12. -/
def Obligations.DecodeOfEncode : Prop :=
  ∀ (i : Instr) (p : Port) (rest : List Byte), i.port = some p →
    decodeOn p (encode i ++ rest) = .ok (i, rest)

/-- R96. The DATA sub-forms' bytes, read under a latch that selects them, are those sub-forms; and a LATCH byte is the
same row under every latch. -/
def Obligations.DataFormsDecodeUnderLatch : Prop :=
  (∀ (ch : Fin 4) (d : BitVec 6), ch ≠ 3 → (encode (.dataTone d)).map (decodeAt ch .tone) = [.dataTone d]) ∧
  (∀ (ch : Fin 4) (v : Nibble), (encode (.dataVol v)).map (decodeAt ch .volume) = [.dataVol v]) ∧
  (∀ (m : BitVec 1) (r : BitVec 2), (encode (.dataNoise m r)).map (decodeAt 3 .tone) = [.dataNoise m r]) ∧
  (∀ (ch : Fin 4) (ty : RegType) (b : Byte), b[7] = true → decodeAt ch ty b = decodeByte b)

/-- R95, R97, R99. Writing back what a byte decodes to gives the byte with its ignored bits 0: bit 6 of a DATA byte,
bit 3 of an LNOISE byte; every other LATCH byte comes back whole. Layout of log 13. -/
def Obligations.EncodeOfDecodeClearsIgnoredBits : Prop :=
  ∀ b : Byte, encode (decodeByte b) =
    [if b[7] then (if b.extractLsb' 4 4 = 0xE#4 then b &&& 0xF7#8 else b) else b &&& 0xBF#8]

/-- R97. Ignored bits do not change what a command is or does: bit 6 of a DATA byte and bit 3 of an LNOISE byte at
decoding; and of a DATA operand bits 5 and 4 with the latch at a volume, bits 5 to 3 with the latch at the noise control,
bits 5 and 4 with the latch at a tone period and width 4. Layout of log 13, width of log 15. -/
def Obligations.IgnoredDataBitsHaveNoEffect : Prop :=
  (∀ b : Byte, b[7] = false → decodeByte (b ^^^ 0x40#8) = decodeByte b) ∧
  (∀ b : Byte, b.extractLsb' 4 4 = 0xE#4 → decodeByte (b ^^^ 0x08#8) = decodeByte b) ∧
  ∀ (s : State) (d e : BitVec 6),
    (s.psg.latchType = .volume → d.extractLsb' 0 4 = e.extractLsb' 0 4 → exec (.data d) s = exec (.data e) s) ∧
    (s.psg.latchType = .tone → s.psg.latchCh = 3 → d.extractLsb' 0 3 = e.extractLsb' 0 3 →
      exec (.data d) s = exec (.data e) s) ∧
    (s.psg.latchType = .tone → s.psg.latchCh ≠ 3 → s.cfg.toneDataWidth = 4 →
      d.extractLsb' 0 4 = e.extractLsb' 0 4 → exec (.data d) s = exec (.data e) s)

/-- R95. Words written out from the command table decode to their instructions (a sanity statement; layout of log
13). -/
def Obligations.CommandWordsDecode : Prop :=
  decodeTableWord 8 0b10001000 = some (.ltone0 8) ∧ decodeTableWord 8 0b11100011 = some (.lnoise 0 3) ∧
  decodeTableWord 8 0b10110111 = some (.lvol1 7) ∧ decodeTableWord 8 0b11110000 = some (.lvol3 0) ∧
  decodeTableWord 8 0b01111111 = some (.data 0x3F)

/-! ## HOST ports of the PSG engine -/

/-- R110. WR b with room in the queue completes: b becomes the last byte and nothing else changes. -/
def Obligations.WrAppendsToQueue : Prop :=
  ∀ (s : State) (b : Byte), s.psg.q.length < 1024 →
    exec (.wr b) s = .next { s with psg := { s.psg with q := s.psg.q ++ [b] } }

/-- R111, R226. WR b with a full queue completes in its dropped form: wr_dropped counts, the queue and all else
stay. -/
def Obligations.WrDropsNewestWhenFull : Prop :=
  ∀ (s : State) (b : Byte), s.psg.q.length = 1024 →
    exec (.wr b) s = .next { s with psg := { s.psg with wrDropped := s.psg.wrDropped + 1 } }

/-- R112, R114. ADV c adds c to the credit and SYNC sets sync_pending; each completes in every state and changes
nothing else. -/
def Obligations.AdvAndSyncComplete : Prop :=
  (∀ (s : State) (c : Byte), exec (.adv c) s = .next { s with psg := { s.psg with credit := s.psg.credit + c.toNat } }) ∧
  (∀ s : State, exec .sync s = .next { s with psg := { s.psg with syncPending := true } })

/-! ## The PSG worker -/

/-- R120, R128. WAKE completes from Idle with sync_pending = 1, SLEEP from Draining with credit below 16; each changes
only what its rule writes (spec decision D19). -/
def Obligations.WakeAndSleepComplete : Prop :=
  (∀ s : State, s.psg.worker = .idle → s.psg.syncPending = true →
    exec .wake s = .next { s with psg := { s.psg with syncPending := false, worker := .draining } }) ∧
  (∀ s : State, s.psg.worker = .draining → s.psg.credit < 16 →
    exec .sleep s = .next { s with psg := { s.psg with worker := .idle } })

/-- R123, R122, R96. STEP, where it is enabled, removes exactly the head byte of a queue that is not empty and executes the
instruction it decodes to; the rest waits, and 16 credit units are taken. Items 2 to 6 (`State.afterCommand`) follow.
With an empty queue item 1 does nothing and the step goes on. -/
def Obligations.StepExecutesHeadCommand : Prop :=
  ∀ s : State, s.psg.worker = .draining → 16 ≤ s.psg.credit → s.cfg.callbackPeriod ≠ 0 →
    (s.psg.q = [] → exec .step s = .next s.afterCommand) ∧
    (∀ (b : Byte) (rest : List Byte), s.psg.q = b :: rest → ∃ u : State,
      exec (decodeByte b) { s with psg := { s.psg with q := rest } } = .next u ∧
      exec (decodeAt s.psg.latchCh s.psg.latchType b) { s with psg := { s.psg with q := rest } } = .next u ∧
      exec .step s = .next u.afterCommand ∧
      u.afterCommand.psg.q = rest ∧ u.afterCommand.psg.credit + 16 = s.psg.credit)

/-- R123, R126, R127, R26, R122 and the frame of STEP: where it is enabled it completes, removes at most the head byte and
takes exactly 16 credit units. The worker, the wake flag and the drop counter are unchanged; the latch, the periods, the
volumes, rate and mode are as the command of item 1 left them (`Psg.dequeue`), and so is all of the PSG but the generators'
own registers, the accumulator and the credit. The configuration, the video state, the TX history, the program and the
schedule are unchanged, and strobes are only appended. -/
def Obligations.StepFrameAndCredit : Prop :=
  ∀ s : State, s.psg.worker = .draining → 16 ≤ s.psg.credit → s.cfg.callbackPeriod ≠ 0 →
    ∃ t : State, exec .step s = .next t ∧
      t.psg.q = s.psg.q.tail ∧ t.psg.credit + 16 = s.psg.credit ∧
      t.psg.worker = s.psg.worker ∧ t.psg.syncPending = s.psg.syncPending ∧ t.psg.wrDropped = s.psg.wrDropped ∧
      t.psg.latchCh = (s.psg.dequeue s.cfg).latchCh ∧ t.psg.latchType = (s.psg.dequeue s.cfg).latchType ∧
      t.psg = { s.psg.dequeue s.cfg with
        tcnt := t.psg.tcnt, tpol := t.psg.tpol, ncnt := t.psg.ncnt, nff := t.psg.nff, lfsr := t.psg.lfsr
        npol := t.psg.npol, cbAcc := t.psg.cbAcc, credit := t.psg.credit } ∧
      t = { s with psg := t.psg, out := { s.out with samples := t.out.samples } } ∧
      s.out.samples <+: t.out.samples

/-- R136 to R140. What STEP does to each tone channel, on the registers its command left (`Psg.dequeue`): guard
(counter active or period at least 8), decrement by 16, and at a count of 0 or less reload with period × 16 and toggle,
but for period 1, which keeps the polarity. Without the guard the channel stays. The readings of "crossing" and
"active" are log 16. -/
def Obligations.StepAdvancesTones : Prop :=
  ∀ (s : State) (c : Fin 3), s.psg.worker = .draining → 16 ≤ s.psg.credit → s.cfg.callbackPeriod ≠ 0 →
    ∃ t : State, exec .step s = .next t ∧
      t.psg.period = (s.psg.dequeue s.cfg).period ∧
      (if 0 < s.psg.tcnt[c] ∨ 8 ≤ t.psg.period[c].toNat then
        (if s.psg.tcnt[c] - 16 ≤ 0 then
          t.psg.tcnt[c] = ((t.psg.period[c].toNat * 16 : Nat) : Int) ∧
          t.psg.tpol[c] = (if t.psg.period[c] = 1 then s.psg.tpol[c] else !s.psg.tpol[c])
        else t.psg.tcnt[c] = s.psg.tcnt[c] - 16 ∧ t.psg.tpol[c] = s.psg.tpol[c])
      else t.psg.tcnt[c] = s.psg.tcnt[c] ∧ t.psg.tpol[c] = s.psg.tpol[c])

/-- R139 (S2). The polarity of a tone channel never toggles in a step while its period register, as that step's command
leaves it, equals 1, in any state. -/
def Obligations.PcmPeriodNeverToggles : Prop :=
  ∀ (s t : State) (c : Fin 3), exec .step s = .next t → t.psg.period[c] = 1 → t.psg.tpol[c] = s.psg.tpol[c]

/-- R140, R141, R270. A stopped channel (counter 0) with a period of 0 to 7 after the step's command stays stopped and
keeps its polarity. That a counter of 0 is not active is the spec's reading D9, log 16. -/
def Obligations.SmallPeriodDoesNotStartChannel : Prop :=
  ∀ (s : State) (c : Fin 3), s.psg.worker = .draining → 16 ≤ s.psg.credit → s.cfg.callbackPeriod ≠ 0 →
    s.psg.tcnt[c] = 0 → ((s.psg.dequeue s.cfg).period[c]).toNat < 8 →
    ∃ t : State, exec .step s = .next t ∧ t.psg.tcnt[c] = 0 ∧ t.psg.tpol[c] = s.psg.tpol[c]

/-- R142. A running channel with a constant period p of at least 2, just reloaded: through p STEPs with an empty queue
the polarity holds for the first p - 1 and is toggled by the p-th, which reloads the counter again.
A count of exactly 0 is a crossing by the spec's decision D7, log 16. -/
def Obligations.RunningChannelTogglesEveryPeriod : Prop :=
  ∀ (s : State) (c : Fin 3) (k : Nat), s.psg.worker = .draining → s.psg.q = [] → s.cfg.callbackPeriod ≠ 0 →
    2 ≤ s.psg.period[c].toNat → s.psg.tcnt[c] = ((s.psg.period[c].toNat * 16 : Nat) : Int) →
    k ≤ s.psg.period[c].toNat → 16 * k ≤ s.psg.credit →
    ∃ t : State, runEvents (List.replicate k .step) s = .next t ∧ t.psg.period[c] = s.psg.period[c] ∧
      (if k = s.psg.period[c].toNat then
        t.psg.tcnt[c] = s.psg.tcnt[c] ∧ t.psg.tpol[c] = !s.psg.tpol[c]
      else t.psg.tcnt[c] = s.psg.tcnt[c] - 16 * (k : Int) ∧ t.psg.tpol[c] = s.psg.tpol[c])

/-- R146 to R149, R152. What STEP does to the noise generator, on the registers its command left: an unconditional
decrement; at a count of 0 or less the reload by rate ((16 << nrate) × NOISE_MULT, or period[2] × 16 at rate 3) and the
toggle of the flip-flop; and when the flip-flop has become 1, the LFSR clock, which takes the low bit out as the
polarity. Log 16, log 17.
The white taps are log 14; that nmode 0 is periodic, nmode 1 white and nrate 3 the external clock is the spec's decision
D5, log 13. -/
def Obligations.StepAdvancesNoise : Prop :=
  ∀ s : State, s.psg.worker = .draining → 16 ≤ s.psg.credit → s.cfg.callbackPeriod ≠ 0 →
    ∃ t : State, exec .step s = .next t ∧
      (let p := s.psg.dequeue s.cfg
       t.psg.nrate = p.nrate ∧ t.psg.nmode = p.nmode ∧
       (if s.psg.ncnt - 16 ≤ 0 then
         t.psg.ncnt = (if p.nrate = 3 then ((p.period[2].toNat * 16 : Nat) : Int)
           else (((16 * 2 ^ p.nrate.toNat) * s.cfg.noiseMult : Nat) : Int)) ∧
         t.psg.nff = !s.psg.nff ∧
         (if s.psg.nff then t.psg.lfsr = p.lfsr ∧ t.psg.npol = s.psg.npol
          else t.psg.npol = p.lfsr[0] ∧
            (∀ j : Nat, j < 15 → t.psg.lfsr.getLsbD j = p.lfsr.getLsbD (j + 1)) ∧
            (p.nmode = 0 → t.psg.lfsr[15] = p.lfsr[0]) ∧
            (p.nmode = 1 → s.cfg.lfsrTaps = 0x0009#16 → t.psg.lfsr[15] = (p.lfsr[0] ^^ p.lfsr[3])))
       else t.psg.ncnt = s.psg.ncnt - 16 ∧ t.psg.nff = s.psg.nff ∧ t.psg.lfsr = p.lfsr ∧
         t.psg.npol = s.psg.npol))

/-- R151. With taps 0x0009 (log 14) an LFSR clock loses no state, in either mode: two different values never clock to the same
one, and a value other than 0 never clocks to 0. -/
def Obligations.LfsrClockIsInjective : Prop :=
  ∀ (c : Config) (p q : Psg), c.lfsrTaps = 0x0009#16 → p.nmode = q.nmode →
    ((p.lfsrClock c).lfsr = (q.lfsrClock c).lfsr → p.lfsr = q.lfsr) ∧
    (p.lfsr ≠ 0 → (p.lfsrClock c).lfsr ≠ 0)

/-- R151. In periodic mode sixteen clocks bring every LFSR value back, whatever the taps. That nmode 0 is the
periodic mode is the spec's decision D5, log 13. -/
def Obligations.PeriodicNoiseHasPeriodSixteen : Prop :=
  ∀ (c : Config) (p : Psg), p.nmode = 0 → ((Psg.lfsrClock c)^[16] p).lfsr = p.lfsr

/-- R161 to R166. What STEP emits: floor((cb_acc + 16) / CALLBACK_PERIOD) strobes, all alike, each sample 15 - vol where
the channel's enable and its polarity after this step are 1 and else 0, on the volumes this step's command left; the
accumulator keeps the remainder. The enable flags are spec decision D13 (log 18). -/
def Obligations.StepEmitsStrobes : Prop :=
  ∀ s : State, s.psg.worker = .draining → 16 ≤ s.psg.credit → s.cfg.callbackPeriod ≠ 0 →
    ∃ (t : State) (x : Strobe), exec .step s = .next t ∧
      t.out.samples = s.out.samples ++ List.replicate ((s.psg.cbAcc + 16) / s.cfg.callbackPeriod) x ∧
      t.psg.cbAcc = (s.psg.cbAcc + 16) % s.cfg.callbackPeriod ∧
      t.psg.vol = (s.psg.dequeue s.cfg).vol ∧
      x.s0.toNat = (if s.cfg.chEnable[0] && t.psg.tpol[0] then 15 - t.psg.vol[0].toNat else 0) ∧
      x.s1.toNat = (if s.cfg.chEnable[1] && t.psg.tpol[1] then 15 - t.psg.vol[1].toNat else 0) ∧
      x.s2.toNat = (if s.cfg.chEnable[2] && t.psg.tpol[2] then 15 - t.psg.vol[2].toNat else 0) ∧
      x.s3.toNat = (if s.cfg.chEnable[3] && t.psg.npol then 15 - t.psg.vol[3].toNat else 0)

/-- R166. After n STEPs, whatever the queue holds, the strobes emitted are floor((cb_acc + 16 n) / CALLBACK_PERIOD) and
the accumulator is the remainder (cb_acc is 0 after RESET). -/
def Obligations.StrobesPerCredit : Prop :=
  ∀ (s : State) (n : Nat), s.psg.worker = .draining → s.psg.cbAcc < s.cfg.callbackPeriod → 16 * n ≤ s.psg.credit →
    ∃ t : State, runEvents (List.replicate n .step) s = .next t ∧
      t.out.samples.length = s.out.samples.length + (s.psg.cbAcc + 16 * n) / s.cfg.callbackPeriod ∧
      t.psg.cbAcc = (s.psg.cbAcc + 16 * n) % s.cfg.callbackPeriod

/-- R168 (S7). With no register writes and every volume 0xF, n STEPs emit floor((cb_acc + 16 n) / CALLBACK_PERIOD)
strobes and every one is SAMPLE(0, 0, 0, 0). -/
def Obligations.SilentVolumesGiveZeroSamples : Prop :=
  ∀ (s : State) (n : Nat), s.psg.worker = .draining → s.psg.q = [] → (∀ c : Fin 4, s.psg.vol[c] = 0xF) →
    s.psg.cbAcc < s.cfg.callbackPeriod → 16 * n ≤ s.psg.credit →
    ∃ t : State, runEvents (List.replicate n .step) s = .next t ∧
      t.out.samples = s.out.samples ++
        List.replicate ((s.psg.cbAcc + 16 * n) / s.cfg.callbackPeriod) ⟨0, 0, 0, 0⟩

/-- R48 (b), R126, R127 (S1). Credit is conserved along every sequence of events: what it was plus all ADV operands is
what it is plus 16 for each STEP. So 16 times the steps never exceeds the credit added. -/
def Obligations.CreditIsConserved : Prop :=
  ∀ (is : List Instr) (s t : State), s.resetDone = true → runEvents is s = .next t →
    t.psg.credit + 16 * stepCount is = s.psg.credit + advTotal is

/-- R74, R75. A byte with k bytes ahead of it is at the head of the queue after k STEPs, and with it all that follows
in the order enqueued: the (k+1)-th STEP executes it. -/
def Obligations.QueueIsFirstInFirstOut : Prop :=
  ∀ (s : State) (ahead rest : List Byte), s.psg.worker = .draining → s.cfg.callbackPeriod ≠ 0 →
    s.psg.q = ahead ++ rest → 16 * ahead.length ≤ s.psg.credit →
    ∃ t : State, runEvents (List.replicate ahead.length .step) s = .next t ∧ t.psg.q = rest

/-- R120, R122, R128, R204, R205, R206. The six internal events stop, refused by name, exactly where their enabling
conditions are false (that a disabled event is refused is the model's form of "does not happen", log 9; STEP has no
meaning with CALLBACK_PERIOD = 0, U17). -/
def Obligations.InternalEventsNeedTheirConditions : Prop :=
  ∀ s : State,
    (exec .wake s = .refused .notEnabled ↔ ¬ (s.psg.worker = .idle ∧ s.psg.syncPending = true)) ∧
    (exec .step s = .refused .notEnabled ↔ ¬ (s.psg.worker = .draining ∧ 16 ≤ s.psg.credit)) ∧
    (exec .sleep s = .refused .notEnabled ↔ ¬ (s.psg.worker = .draining ∧ s.psg.credit < 16)) ∧
    (exec .txstart s = .refused .notEnabled ↔ ¬ (s.video.txActive = false ∧ s.video.slot.isSome = true)) ∧
    (exec .txpart s = .refused .notEnabled ↔ ¬ (s.video.txActive = true ∧ s.video.txPart < s.cfg.partCount)) ∧
    (exec .txend s = .refused .notEnabled ↔ ¬ (s.video.txActive = true ∧ s.video.txPart = s.cfg.partCount))

/-! ## The video buffer -/

/-- R196 to R199, R41. In a legal configuration the parts divide the frame exactly, a part has at least one payload
byte, and the cells of the part memories have different addresses inside the space V. -/
def Obligations.GeometryIsExact : Prop :=
  ∀ c : Config, c.Legal →
    c.partSize * c.partCount = c.width * c.height * 2 ∧ 1 ≤ c.partSize ∧ c.nParts = c.partCount + c.extraParts ∧
    (∀ (b d : Fin 2) (i j r q : Nat), i < c.nParts → j < c.nParts → r ≤ c.partSize → q ≤ c.partSize →
      c.cellAddr b i r < c.cellCount ∧ (c.cellAddr b i r = c.cellAddr d j q → b = d ∧ i = j ∧ r = q))

/-- R198, R71. When a part is a whole number of scanlines, row y lies wholly in part floor(y / lines_per_part) at
payload offset (y mod lines_per_part) × WIDTH × 2. -/
def Obligations.RowLiesInOnePart : Prop :=
  ∀ (c : Config) (y : Nat), c.Legal → c.partSize % (c.width * 2) = 0 → y < c.height →
    (c.rowPlace y).1 < c.partCount ∧ (c.rowPlace y).2 + c.width * 2 ≤ c.partSize ∧
    c.frameOffset (c.rowPlace y).1 (c.rowPlace y).2 = y * (c.width * 2)

/-- R200. PIXWR i, o, v in range completes: the byte at real offset o + 1 of part i of the drawable buffer reads v;
every byte at any other address, the registers and all else stay. The port is spec decision D26 (log 21), the addresses
are the model's (log 6). -/
def Obligations.PixwrStoresOneByte : Prop :=
  ∀ (s : State) (i o : Nat) (v : Byte), i < s.cfg.nParts → o < s.cfg.partSize →
    ∃ t : State, exec (.pixwr i o v) s = .next t ∧
      t = { s with video := { s.video with mem := t.video.mem } } ∧
      t.video.memRead s.cfg s.video.draw i (o + 1) = v ∧
      (∀ a : Nat, a ≠ s.cfg.cellAddr s.video.draw i (o + 1) → t.video.mem.read s.cfg a = s.video.mem.read s.cfg a)

/-- R200, R14, U15. PIXWR stops, refused by name, with a part index or a payload offset out of range. -/
def Obligations.PixwrOutOfRangeIsRefused : Prop :=
  ∀ (s : State) (i o : Nat) (v : Byte), s.cfg.nParts ≤ i ∨ s.cfg.partSize ≤ o →
    exec (.pixwr i o v) s = .refused .pixelOutOfRange

/-- R202. TICK with the slot empty and no transmission active completes: the slot takes the drawable buffer and the other
becomes drawable, in one event; nothing else changes. -/
def Obligations.TickHandsFrameOver : Prop :=
  ∀ s : State, s.video.slot = none → s.video.txActive = false →
    exec .tick s = .next { s with video := { s.video with slot := some s.video.draw, draw := 1 - s.video.draw } }

/-- R203, R207, R227. TICK with a frame in flight (the slot occupied or a transmission active: spec decision D23, log 20)
completes in its dropped form: it counts, and nothing else changes. -/
def Obligations.TickDropsFrameInFlight : Prop :=
  ∀ s : State, s.video.slot.isSome = true ∨ s.video.txActive = true →
    exec .tick s = .next { s with video := { s.video with droppedFrames := s.video.droppedFrames + 1 } }

/-- R204, R206. TXSTART with the slot holding b and no transmission active, and TXEND with all parts sent, complete and
change only what their rules write. -/
def Obligations.TxstartAndTxendComplete : Prop :=
  (∀ (s : State) (b : Fin 2), s.video.txActive = false → s.video.slot = some b →
    exec .txstart s = .next { s with video := { s.video with
      txBuf := b, slot := none, txActive := true, txPart := 0 } }) ∧
  (∀ s : State, s.video.txActive = true → s.video.txPart = s.cfg.partCount →
    exec .txend s = .next { s with video := { s.video with txActive := false } })

/-- R205, R64. TXPART, where it is enabled, completes: one transfer of part_size + 1 bytes, byte r of it the cell at real
offset r of the part, prefix first (spec decision D24, log 21); tx_part advances; the memory and all else stay. -/
def Obligations.TxpartSendsOnePart : Prop :=
  ∀ s : State, s.video.txActive = true → s.video.txPart < s.cfg.partCount →
    ∃ (t : State) (bytes : List Byte), exec .txpart s = .next t ∧
      t = { s with
        video := { s.video with txPart := s.video.txPart + 1 }
        out := { s.out with transfers := s.out.transfers ++ [⟨bytes, s.cfg.partSize + 1⟩] } } ∧
      bytes.length = s.cfg.partSize + 1 ∧
      (∀ r : Nat, r ≤ s.cfg.partSize →
        bytes[r]? = some (s.video.memRead s.cfg s.video.txBuf s.video.txPart r))

/-- R208, R78. While buffer b holds the frame in flight (in the slot, from the accepted TICK to TXSTART, or in
transmission, from TXSTART to TXEND: D23, log 20), no PIXWR changes a byte of b. No step of the machine does either, and
after the step b still holds the frame in flight, but for the TXEND that ends it. -/
def Obligations.RendererCannotTearTransmission : Prop :=
  (∀ (s t : State) (b : Fin 2) (i o : Nat) (v : Byte), s.Inv → s.video.sends b → exec (.pixwr i o v) s = .next t →
    t.video.sends b ∧
    ∀ j r : Nat, j < s.cfg.nParts → r ≤ s.cfg.partSize → t.video.memRead t.cfg b j r = s.video.memRead s.cfg b j r) ∧
  (∀ (s t : State) (b : Fin 2), s.Inv → s.video.sends b → step s = .next t →
    (t.video.sends b ∨
      (s.video.txActive = true ∧ s.video.txPart = s.cfg.partCount ∧ t.video = { s.video with txActive := false })) ∧
    ∀ j r : Nat, j < s.cfg.nParts → r ≤ s.cfg.partSize → t.video.memRead t.cfg b j r = s.video.memRead s.cfg b j r)

/-- R204 to R206, R79. From a handed-over buffer b, TXSTART, TXPART × PART_COUNT and TXEND complete: the parts of b
are sent once each in ascending order, each with its prefix, and no frame is in flight after.
What is sent, and in which order, is the spec's decision D24, log 21. -/
def Obligations.TransmissionSendsWholeFrame : Prop :=
  ∀ (s : State) (b : Fin 2), s.video.txActive = false → s.video.slot = some b →
    ∃ t : State, runEvents (transmission s.cfg.partCount) s = .next t ∧
      t.out.transfers = s.out.transfers ++ (List.range s.cfg.partCount).map
        (fun i => ⟨(List.range (s.cfg.partSize + 1)).map (fun r => s.video.memRead s.cfg b i r), s.cfg.partSize + 1⟩) ∧
      t.video = { s.video with slot := none, txActive := false, txBuf := b, txPart := s.cfg.partCount } ∧
      t.psg = s.psg ∧ t.out.samples = s.out.samples

/-- R209 (S6). From no frame in flight: n ticks, each followed by its whole transmission, drop no frame. With a second tick
that finds the frame still in the slot, or after TXSTART that finds the transmission active, and then the transmission's
end, n rounds of two ticks drop exactly n of the 2 n. Each accepted tick swaps the buffers and a dropped one swaps nothing
(D23, log 20). -/
def Obligations.DropCountFollowsStalls : Prop :=
  ∀ (s : State) (n : Nat), s.video.slot = none → s.video.txActive = false →
    (∃ t : State,
      runEvents (List.replicate n (Instr.tick :: transmission s.cfg.partCount)).flatten s = .next t ∧
      t.video.droppedFrames = s.video.droppedFrames ∧
      t.video.draw = (if n % 2 = 0 then s.video.draw else 1 - s.video.draw)) ∧
    (∃ t : State,
      runEvents (List.replicate n (Instr.tick :: Instr.tick :: transmission s.cfg.partCount)).flatten s = .next t ∧
      t.video.droppedFrames = s.video.droppedFrames + n ∧
      t.video.draw = (if n % 2 = 0 then s.video.draw else 1 - s.video.draw)) ∧
    (∃ t : State,
      runEvents (List.replicate n (Instr.tick :: Instr.txstart :: Instr.tick ::
        (List.replicate s.cfg.partCount Instr.txpart ++ [Instr.txend]))).flatten s = .next t ∧
      t.video.droppedFrames = s.video.droppedFrames + n ∧
      t.video.draw = (if n % 2 = 0 then s.video.draw else 1 - s.video.draw))

/-! ## RESET -/

/-- R250, R251. RESET with a legal configuration, before any other, completes and every element has its value of R251;
a prefix cell reads the tag and a payload cell the free value (log 5). The zero values are the spec's own choice (D14,
D25; log 2). HOST's program and the schedule stay (log 7). -/
def Obligations.ResetEstablishesState : Prop :=
  ∀ (s : State) (c : Config), s.resetDone = false → c.Legal → ∃ t : State,
    exec (.reset c) s = .next t ∧ t.resetDone = true ∧ t.cfg = c ∧ t.env = s.env ∧
    (∀ k : Fin 3, t.psg.period[k] = 0 ∧ t.psg.tcnt[k] = 0 ∧ t.psg.tpol[k] = c.polarityReset) ∧
    (∀ k : Fin 4, t.psg.vol[k] = 0xF) ∧
    t.psg.lfsr = 0x8000 ∧ t.psg.nrate = 0 ∧ t.psg.nmode = 0 ∧ t.psg.ncnt = 0 ∧ t.psg.nff = false ∧
    t.psg.npol = c.polarityReset ∧ t.psg.latchCh = 0 ∧ t.psg.latchType = .tone ∧ t.psg.credit = 0 ∧ t.psg.q = [] ∧
    t.psg.wrDropped = 0 ∧ t.psg.cbAcc = 0 ∧ t.psg.syncPending = false ∧ t.psg.worker = .idle ∧
    t.video.draw = 0 ∧ t.video.slot = none ∧ t.video.txActive = false ∧ t.video.txBuf = 0 ∧ t.video.txPart = 0 ∧
    t.video.droppedFrames = 0 ∧ t.out.samples = [] ∧ t.out.transfers = [] ∧
    (∀ (b : Fin 2) (i : Nat), t.video.memRead c b i 0 = c.prefixTag) ∧
    (∀ (b : Fin 2) (i r : Nat), 1 ≤ r → r ≤ c.partSize →
      t.video.memRead c b i r = Config.unwrittenByte (c.cellAddr b i r))

/-- R14, R250, R252. RESET is refused after a first RESET, and before it with a configuration that is not legal. Before RESET
no other event happens: on HOST's turn a legal RESET in its program happens, any other line that stands for a HOST event is
refused, and a step that answers a next state has either performed the RESET or moved nothing but the schedule. The
refusals' names and the bit resetDone are the model's (log 7). -/
def Obligations.ResetIsSingleShot : Prop :=
  (∀ (s : State) (c : Config), s.resetDone = true → exec (.reset c) s = .refused .secondReset) ∧
  (∀ (s : State) (c : Config), s.resetDone = false → ¬ c.Legal → exec (.reset c) s = .refused .illegalConfiguration) ∧
  (∀ (s : State) (c : Config) (rest : List Instr) (sched : List Agent), s.resetDone = false → c.Legal →
    s.env.schedule = .host :: sched → s.env.program = .reset c :: rest →
    step s = .next { State.resetWith c with env := { s.env with schedule := sched, program := rest } }) ∧
  (∀ (s : State) (line : Instr) (rest : List Instr), s.resetDone = false → s.agent = .host →
    s.env.program = line :: rest → isProgramLine line = true → (∀ c : Config, line ≠ .reset c) →
    step s = .refused .beforeReset) ∧
  (∀ s t : State, s.resetDone = false → step s = .next t →
    (∃ (c : Config) (rest : List Instr), s.env.program = .reset c :: rest ∧ c.Legal ∧ t.cfg = c ∧
      t.resetDone = true ∧ t.env.program = rest) ∨
    (t = { s with env := t.env } ∧ t.env.program = s.env.program))

/-- R255. The first STEP after RESET with an empty queue: the tones do nothing, the noise generator reloads 16 ×
NOISE_MULT, sets the flip-flop and clocks the LFSR to 0x4000 with polarity 0, every strobe is (0, 0, 0, 0), and the
accumulator is 16 less the period for each strobe. It rests on the reset values of D14 (log 2).
That the reload assigns is D8, log 16; the unguarded decrement and the place of NOISE_MULT are D10 and D11, log 17. -/
def Obligations.FirstStepAfterReset : Prop :=
  ∀ (c : Config) (k : Nat), c.Legal → ∃ t : State,
    exec .step { State.resetWith c with psg := { Psg.initial c with worker := .draining, credit := k + 16 } } = .next t ∧
    (∀ j : Fin 3, t.psg.tcnt[j] = 0 ∧ t.psg.tpol[j] = c.polarityReset) ∧
    t.psg.ncnt = ((16 * c.noiseMult : Nat) : Int) ∧ t.psg.nff = true ∧ t.psg.lfsr = 0x4000 ∧ t.psg.npol = false ∧
    t.psg.credit = k ∧ t.psg.cbAcc = 16 % c.callbackPeriod ∧ (∀ x ∈ t.out.samples, x = ⟨0, 0, 0, 0⟩)

/-! ## Outputs and pseudo-instructions -/

/-- R165, R169, R205. The emissions complete in every state: SAMPLE appends one strobe with its four samples, TX one
transfer, and nothing else changes (the history is the model's record, log 8, log 12). -/
def Obligations.OutputsAreEmitted : Prop :=
  (∀ (s : State) (a b c d : Byte), exec (.sample a b c d) s =
    .next { s with out := { s.out with samples := s.out.samples ++ [⟨a, b, c, d⟩] } }) ∧
  (∀ (s : State) (bytes : List Byte) (len : Nat), exec (.tx bytes len) s =
    .next { s with out := { s.out with transfers := s.out.transfers ++ [⟨bytes, len⟩] } })

/-- R100. The pseudo-instructions complete in every state, and each does what its expansion does event by event (TONE:
two writes, low nibble first; VOL: one; SILENCE: four; WRS: WR, SYNC; ENDFRAME: SYNC, TICK). -/
def Obligations.PseudoInstructionsExpand : Prop :=
  ∀ s : State,
    (∀ (c : Fin 3) (p : BitVec 10), ∃ t, exec (.tone c p) s = .next t ∧
      runEvents [.wr (0x80#8 ||| (BitVec.ofNat 8 c.val <<< 5) ||| (p.extractLsb' 0 4).setWidth 8),
        .wr ((p.extractLsb' 4 6).setWidth 8)] s = .next t) ∧
    (∀ (c : Fin 4) (v : Nibble), ∃ t, exec (.vol c v) s = .next t ∧
      runEvents [.wr (0x90#8 ||| (BitVec.ofNat 8 c.val <<< 5) ||| v.setWidth 8)] s = .next t) ∧
    (∃ t, exec .silence s = .next t ∧ runEvents [.wr 0x9F, .wr 0xBF, .wr 0xDF, .wr 0xFF] s = .next t) ∧
    (∀ b : Byte, ∃ t, exec (.wrs b) s = .next t ∧ runEvents [.wr b, .sync] s = .next t) ∧
    (∃ t, exec .endframe s = .next t ∧ runEvents [.sync, .tick] s = .next t)

/-! ## The machine -/

/-- R7, R73, R99, R100. A step runs the event chosen: HOST's turn runs the first event of its program's line through exec;
a worker's turn runs its enabled event. That the turn is taken off the schedule first is the model's (log 3), and so is
that a line's other events stay in front of the program, for HOST's next turns (log 11). -/
def Obligations.StepRunsChosenEvent : Prop :=
  ∀ (s : State) (a : Agent) (sched : List Agent), s.resetDone = true → s.env.schedule = a :: sched →
    (∀ (line e : Instr) (more rest : List Instr), a = .host → s.env.program = line :: rest →
      hostEvents line = e :: more →
      step s = exec e { s with env := { s.env with schedule := sched, program := more ++ rest } }) ∧
    (a = .psgw → s.psg.worker = .idle → s.psg.syncPending = true →
      step s = exec .wake { s with env := { s.env with schedule := sched } }) ∧
    (a = .psgw → s.psg.worker = .draining → 16 ≤ s.psg.credit →
      step s = exec .step { s with env := { s.env with schedule := sched } }) ∧
    (a = .psgw → s.psg.worker = .draining → s.psg.credit < 16 →
      step s = exec .sleep { s with env := { s.env with schedule := sched } }) ∧
    (a = .vidw → s.video.txActive = false → s.video.slot.isSome = true →
      step s = exec .txstart { s with env := { s.env with schedule := sched } }) ∧
    (a = .vidw → s.video.txActive = true → s.video.txPart < s.cfg.partCount →
      step s = exec .txpart { s with env := { s.env with schedule := sched } }) ∧
    (a = .vidw → s.video.txActive = true → s.video.txPart = s.cfg.partCount →
      step s = exec .txend { s with env := { s.env with schedule := sched } })

/-- R25, R122 to R124. A step runs the decoded instruction: on PSGW's turn, draining with credit, the byte at the head of
the queue is decoded and executed by exec on the state with the byte popped and the turn taken; then items 2 to 6 of
STEP. With a command byte placed by withFetchWord the very next step is that step. -/
def Obligations.StepRunsDecodedCommand : Prop :=
  (∀ (s : State) (b : Byte) (rest : List Byte) (sched : List Agent), s.resetDone = true →
    s.env.schedule = .psgw :: sched → s.psg.worker = .draining → 16 ≤ s.psg.credit → s.cfg.callbackPeriod ≠ 0 →
    s.psg.q = b :: rest → ∃ u : State,
      exec (decodeByte b) { s with psg := { s.psg with q := rest }, env := { s.env with schedule := sched } } = .next u ∧
      step s = .next u.afterCommand) ∧
  (∀ (s : State) (w : Nat), s.cfg.callbackPeriod ≠ 0 → ∃ (i : Instr) (u : State),
    decodeTableWord 8 w = some i ∧
    exec i { s with
      resetDone := true
      psg := { s.psg with q := s.psg.q.tail, worker := .draining, credit := max s.psg.credit 16 } } = .next u ∧
    step (s.withFetchWord 8 w) = .next u.afterCommand)

/-- R48, R250. The invariant holds after RESET under every legal configuration, State.reset's among them. -/
def Obligations.InvariantHoldsAtReset : Prop :=
  (∀ c : Config, c.Legal → (State.resetWith c).Inv) ∧ State.reset.Inv ∧
  (∀ (s t : State) (c : Config), exec (.reset c) s = .next t → t.Inv)

/-- R48, R144, R151, R156, R201, R208. Every step, whatever agent moves and whatever HOST's program holds, keeps the
invariant: queue at most 1024, accumulator below the callback period, counters in 0..16368, LFSR not 0, prefixes stable,
one owner of each buffer, and the memory's canonical form.
The counter bounds rest on logs 16 and 17, the live LFSR on the taps of log 14, the one owner on log 20; the memory's form
is the model's, log 6. -/
def Obligations.StepKeepsInvariant : Prop :=
  ∀ s t : State, s.Inv → step s = .next t → t.Inv

/-- R39, R38, R46, R252. No event after RESET changes the configuration, and the drop counters never fall. -/
def Obligations.ConfigurationAndDropCountersPersist : Prop :=
  ∀ s t : State, s.resetDone = true → step s = .next t →
    t.resetDone = true ∧ t.cfg = s.cfg ∧ s.psg.wrDropped ≤ t.psg.wrDropped ∧
    s.video.droppedFrames ≤ t.video.droppedFrames

/-- R20, R231. The two halves share no state: a PSG event neither reads nor writes the video state, and a video event
neither reads nor writes the PSG state. -/
def Obligations.PsgAndVideoAreIndependent : Prop :=
  (∀ (i : Instr) (s t : State) (v : Video), isPsgEvent i = true → exec i s = .next t →
    t.video = s.video ∧ exec i { s with video := v } = .next { t with video := v }) ∧
  (∀ (i : Instr) (s t : State) (p : Psg), isVideoEvent i = true → exec i s = .next t →
    t.psg = s.psg ∧ exec i { s with psg := p } = .next { t with psg := p })

/-- R262, R240. A blocked agent's turn changes nothing but the schedule's own data, whatever the others do: PSGW's in Idle
with sync_pending = 0, VIDW's with the slot empty and no transmission active, HOST's with an empty program. So in a
quiescent state only HOST can make the machine move. That such a turn passes is the model's form of "no enabled event"
(log 3). -/
def Obligations.QuiescentWorkersDoNothing : Prop :=
  (∀ s : State, s.agent = .psgw → s.psg.worker = .idle → s.psg.syncPending = false →
    ∃ e : Env, step s = .next { s with env := e } ∧ e.program = s.env.program) ∧
  (∀ s : State, s.agent = .vidw → s.video.slot = none → s.video.txActive = false →
    ∃ e : Env, step s = .next { s with env := e } ∧ e.program = s.env.program) ∧
  (∀ s : State, s.agent = .host → s.env.program = [] →
    ∃ e : Env, step s = .next { s with env := e } ∧ e.program = s.env.program) ∧
  (∀ s : State, s.quiescent = true → s.agent ≠ .host →
    ∃ e : Env, step s = .next { s with env := e } ∧ e.program = s.env.program)

/-- R128, R130, R263. A drain pass ends: from Draining, floor(credit / 16) + 1 turns of PSGW with nothing else between
them spend all whole steps of credit and reach Idle with the remainder. -/
def Obligations.DrainPassTerminates : Prop :=
  ∀ (s : State) (rest : List Agent), s.resetDone = true → s.psg.worker = .draining → s.cfg.callbackPeriod ≠ 0 →
    s.env.schedule = List.replicate (s.psg.credit / 16 + 1) .psgw ++ rest →
    ∃ t : State, Sys2Proof.core.run (s.psg.credit / 16 + 1) s = .next t ∧ t.psg.worker = .idle ∧
      t.psg.credit = s.psg.credit % 16 ∧ t.psg.q = s.psg.q.drop (s.psg.credit / 16) ∧ t.env.schedule = rest

/-- R263, R204 to R206. After HOST's last event VIDW finishes a handed-over frame within PART_COUNT + 2 of its own turns,
whatever turns of PSGW (or idle turns of HOST) stand between and after them: the premise is a schedule that gives VIDW
that many turns (weak fairness is no property of step, log 26). -/
def Obligations.FrameInFlightIsFinished : Prop :=
  ∀ (s : State) (b : Fin 2) (turns rest : List Agent), s.resetDone = true → s.cfg.callbackPeriod ≠ 0 →
    s.env.program = [] → s.video.txActive = false → s.video.slot = some b →
    s.env.schedule = turns ++ rest → s.cfg.partCount + 2 ≤ turns.count .vidw →
    ∃ t : State, Sys2Proof.core.run turns.length s = .next t ∧ t.video.inFlight = false ∧
      t.out.transfers.length = s.out.transfers.length + s.cfg.partCount ∧ t.env.schedule = rest

/-- R98, R99. A program line that is no HOST event (a worker event, an output, a DATA sub-form) is refused by name on HOST's
turn, before RESET and after it; every other line stands for at least one HOST event. The refusal is the model's (log
11). -/
def Obligations.NonHostLinesAreRefused : Prop :=
  (∀ (s : State) (line : Instr) (rest : List Instr), s.agent = .host → s.env.program = line :: rest →
    isProgramLine line = false → step s = .refused .notAHostEvent) ∧
  (∀ line : Instr, isProgramLine line = true → hostEvents line ≠ [])
end

