-- ==== Sys2Proof/Laws/State.lean ====
section
/-! SUPPORT. One lemma per field per register update, true by definition, so that no proof unfolds a record
update. -/

namespace Sys2Proof.Machine

/-! `Psg.setLatch` -/

@[simp] theorem Psg.setLatch_period (p : Psg) (ch : Fin 4) (ty : RegType) : (p.setLatch ch ty).period = p.period := rfl
@[simp] theorem Psg.setLatch_vol (p : Psg) (ch : Fin 4) (ty : RegType) : (p.setLatch ch ty).vol = p.vol := rfl
@[simp] theorem Psg.setLatch_nrate (p : Psg) (ch : Fin 4) (ty : RegType) : (p.setLatch ch ty).nrate = p.nrate := rfl
@[simp] theorem Psg.setLatch_nmode (p : Psg) (ch : Fin 4) (ty : RegType) : (p.setLatch ch ty).nmode = p.nmode := rfl
@[simp] theorem Psg.setLatch_latchCh (p : Psg) (ch : Fin 4) (ty : RegType) : (p.setLatch ch ty).latchCh = ch := rfl
@[simp] theorem Psg.setLatch_latchType (p : Psg) (ch : Fin 4) (ty : RegType) : (p.setLatch ch ty).latchType = ty := rfl
@[simp] theorem Psg.setLatch_tcnt (p : Psg) (ch : Fin 4) (ty : RegType) : (p.setLatch ch ty).tcnt = p.tcnt := rfl
@[simp] theorem Psg.setLatch_tpol (p : Psg) (ch : Fin 4) (ty : RegType) : (p.setLatch ch ty).tpol = p.tpol := rfl
@[simp] theorem Psg.setLatch_lfsr (p : Psg) (ch : Fin 4) (ty : RegType) : (p.setLatch ch ty).lfsr = p.lfsr := rfl
@[simp] theorem Psg.setLatch_ncnt (p : Psg) (ch : Fin 4) (ty : RegType) : (p.setLatch ch ty).ncnt = p.ncnt := rfl
@[simp] theorem Psg.setLatch_nff (p : Psg) (ch : Fin 4) (ty : RegType) : (p.setLatch ch ty).nff = p.nff := rfl
@[simp] theorem Psg.setLatch_npol (p : Psg) (ch : Fin 4) (ty : RegType) : (p.setLatch ch ty).npol = p.npol := rfl
@[simp] theorem Psg.setLatch_q (p : Psg) (ch : Fin 4) (ty : RegType) : (p.setLatch ch ty).q = p.q := rfl
@[simp] theorem Psg.setLatch_credit (p : Psg) (ch : Fin 4) (ty : RegType) : (p.setLatch ch ty).credit = p.credit := rfl
@[simp] theorem Psg.setLatch_cbAcc (p : Psg) (ch : Fin 4) (ty : RegType) : (p.setLatch ch ty).cbAcc = p.cbAcc := rfl
@[simp] theorem Psg.setLatch_wrDropped (p : Psg) (ch : Fin 4) (ty : RegType) : (p.setLatch ch ty).wrDropped = p.wrDropped := rfl
@[simp] theorem Psg.setLatch_syncPending (p : Psg) (ch : Fin 4) (ty : RegType) : (p.setLatch ch ty).syncPending = p.syncPending := rfl
@[simp] theorem Psg.setLatch_worker (p : Psg) (ch : Fin 4) (ty : RegType) : (p.setLatch ch ty).worker = p.worker := rfl

/-! `Psg.setPeriod` -/

@[simp] theorem Psg.setPeriod_period (p : Psg) (c : Fin 3) (v : BitVec 10) : (p.setPeriod c v).period = p.period.set c v := rfl
@[simp] theorem Psg.setPeriod_vol (p : Psg) (c : Fin 3) (v : BitVec 10) : (p.setPeriod c v).vol = p.vol := rfl
@[simp] theorem Psg.setPeriod_nrate (p : Psg) (c : Fin 3) (v : BitVec 10) : (p.setPeriod c v).nrate = p.nrate := rfl
@[simp] theorem Psg.setPeriod_nmode (p : Psg) (c : Fin 3) (v : BitVec 10) : (p.setPeriod c v).nmode = p.nmode := rfl
@[simp] theorem Psg.setPeriod_latchCh (p : Psg) (c : Fin 3) (v : BitVec 10) : (p.setPeriod c v).latchCh = p.latchCh := rfl
@[simp] theorem Psg.setPeriod_latchType (p : Psg) (c : Fin 3) (v : BitVec 10) : (p.setPeriod c v).latchType = p.latchType := rfl
@[simp] theorem Psg.setPeriod_tcnt (p : Psg) (c : Fin 3) (v : BitVec 10) : (p.setPeriod c v).tcnt = p.tcnt := rfl
@[simp] theorem Psg.setPeriod_tpol (p : Psg) (c : Fin 3) (v : BitVec 10) : (p.setPeriod c v).tpol = p.tpol := rfl
@[simp] theorem Psg.setPeriod_lfsr (p : Psg) (c : Fin 3) (v : BitVec 10) : (p.setPeriod c v).lfsr = p.lfsr := rfl
@[simp] theorem Psg.setPeriod_ncnt (p : Psg) (c : Fin 3) (v : BitVec 10) : (p.setPeriod c v).ncnt = p.ncnt := rfl
@[simp] theorem Psg.setPeriod_nff (p : Psg) (c : Fin 3) (v : BitVec 10) : (p.setPeriod c v).nff = p.nff := rfl
@[simp] theorem Psg.setPeriod_npol (p : Psg) (c : Fin 3) (v : BitVec 10) : (p.setPeriod c v).npol = p.npol := rfl
@[simp] theorem Psg.setPeriod_q (p : Psg) (c : Fin 3) (v : BitVec 10) : (p.setPeriod c v).q = p.q := rfl
@[simp] theorem Psg.setPeriod_credit (p : Psg) (c : Fin 3) (v : BitVec 10) : (p.setPeriod c v).credit = p.credit := rfl
@[simp] theorem Psg.setPeriod_cbAcc (p : Psg) (c : Fin 3) (v : BitVec 10) : (p.setPeriod c v).cbAcc = p.cbAcc := rfl
@[simp] theorem Psg.setPeriod_wrDropped (p : Psg) (c : Fin 3) (v : BitVec 10) : (p.setPeriod c v).wrDropped = p.wrDropped := rfl
@[simp] theorem Psg.setPeriod_syncPending (p : Psg) (c : Fin 3) (v : BitVec 10) : (p.setPeriod c v).syncPending = p.syncPending := rfl
@[simp] theorem Psg.setPeriod_worker (p : Psg) (c : Fin 3) (v : BitVec 10) : (p.setPeriod c v).worker = p.worker := rfl

/-! `Psg.setVol` -/

@[simp] theorem Psg.setVol_period (p : Psg) (c : Fin 4) (v : Nibble) : (p.setVol c v).period = p.period := rfl
@[simp] theorem Psg.setVol_vol (p : Psg) (c : Fin 4) (v : Nibble) : (p.setVol c v).vol = p.vol.set c v := rfl
@[simp] theorem Psg.setVol_nrate (p : Psg) (c : Fin 4) (v : Nibble) : (p.setVol c v).nrate = p.nrate := rfl
@[simp] theorem Psg.setVol_nmode (p : Psg) (c : Fin 4) (v : Nibble) : (p.setVol c v).nmode = p.nmode := rfl
@[simp] theorem Psg.setVol_latchCh (p : Psg) (c : Fin 4) (v : Nibble) : (p.setVol c v).latchCh = p.latchCh := rfl
@[simp] theorem Psg.setVol_latchType (p : Psg) (c : Fin 4) (v : Nibble) : (p.setVol c v).latchType = p.latchType := rfl
@[simp] theorem Psg.setVol_tcnt (p : Psg) (c : Fin 4) (v : Nibble) : (p.setVol c v).tcnt = p.tcnt := rfl
@[simp] theorem Psg.setVol_tpol (p : Psg) (c : Fin 4) (v : Nibble) : (p.setVol c v).tpol = p.tpol := rfl
@[simp] theorem Psg.setVol_lfsr (p : Psg) (c : Fin 4) (v : Nibble) : (p.setVol c v).lfsr = p.lfsr := rfl
@[simp] theorem Psg.setVol_ncnt (p : Psg) (c : Fin 4) (v : Nibble) : (p.setVol c v).ncnt = p.ncnt := rfl
@[simp] theorem Psg.setVol_nff (p : Psg) (c : Fin 4) (v : Nibble) : (p.setVol c v).nff = p.nff := rfl
@[simp] theorem Psg.setVol_npol (p : Psg) (c : Fin 4) (v : Nibble) : (p.setVol c v).npol = p.npol := rfl
@[simp] theorem Psg.setVol_q (p : Psg) (c : Fin 4) (v : Nibble) : (p.setVol c v).q = p.q := rfl
@[simp] theorem Psg.setVol_credit (p : Psg) (c : Fin 4) (v : Nibble) : (p.setVol c v).credit = p.credit := rfl
@[simp] theorem Psg.setVol_cbAcc (p : Psg) (c : Fin 4) (v : Nibble) : (p.setVol c v).cbAcc = p.cbAcc := rfl
@[simp] theorem Psg.setVol_wrDropped (p : Psg) (c : Fin 4) (v : Nibble) : (p.setVol c v).wrDropped = p.wrDropped := rfl
@[simp] theorem Psg.setVol_syncPending (p : Psg) (c : Fin 4) (v : Nibble) : (p.setVol c v).syncPending = p.syncPending := rfl
@[simp] theorem Psg.setVol_worker (p : Psg) (c : Fin 4) (v : Nibble) : (p.setVol c v).worker = p.worker := rfl

/-! `Psg.noiseWrite` -/

@[simp] theorem Psg.noiseWrite_period (p : Psg) (m : BitVec 1) (r : BitVec 2) : (p.noiseWrite m r).period = p.period := rfl
@[simp] theorem Psg.noiseWrite_vol (p : Psg) (m : BitVec 1) (r : BitVec 2) : (p.noiseWrite m r).vol = p.vol := rfl
@[simp] theorem Psg.noiseWrite_nrate (p : Psg) (m : BitVec 1) (r : BitVec 2) : (p.noiseWrite m r).nrate = r := rfl
@[simp] theorem Psg.noiseWrite_nmode (p : Psg) (m : BitVec 1) (r : BitVec 2) : (p.noiseWrite m r).nmode = m := rfl
@[simp] theorem Psg.noiseWrite_latchCh (p : Psg) (m : BitVec 1) (r : BitVec 2) : (p.noiseWrite m r).latchCh = p.latchCh := rfl
@[simp] theorem Psg.noiseWrite_latchType (p : Psg) (m : BitVec 1) (r : BitVec 2) : (p.noiseWrite m r).latchType = p.latchType := rfl
@[simp] theorem Psg.noiseWrite_tcnt (p : Psg) (m : BitVec 1) (r : BitVec 2) : (p.noiseWrite m r).tcnt = p.tcnt := rfl
@[simp] theorem Psg.noiseWrite_tpol (p : Psg) (m : BitVec 1) (r : BitVec 2) : (p.noiseWrite m r).tpol = p.tpol := rfl
@[simp] theorem Psg.noiseWrite_lfsr (p : Psg) (m : BitVec 1) (r : BitVec 2) : (p.noiseWrite m r).lfsr = lfsrReset := rfl
@[simp] theorem Psg.noiseWrite_ncnt (p : Psg) (m : BitVec 1) (r : BitVec 2) : (p.noiseWrite m r).ncnt = p.ncnt := rfl
@[simp] theorem Psg.noiseWrite_nff (p : Psg) (m : BitVec 1) (r : BitVec 2) : (p.noiseWrite m r).nff = p.nff := rfl
@[simp] theorem Psg.noiseWrite_npol (p : Psg) (m : BitVec 1) (r : BitVec 2) : (p.noiseWrite m r).npol = p.npol := rfl
@[simp] theorem Psg.noiseWrite_q (p : Psg) (m : BitVec 1) (r : BitVec 2) : (p.noiseWrite m r).q = p.q := rfl
@[simp] theorem Psg.noiseWrite_credit (p : Psg) (m : BitVec 1) (r : BitVec 2) : (p.noiseWrite m r).credit = p.credit := rfl
@[simp] theorem Psg.noiseWrite_cbAcc (p : Psg) (m : BitVec 1) (r : BitVec 2) : (p.noiseWrite m r).cbAcc = p.cbAcc := rfl
@[simp] theorem Psg.noiseWrite_wrDropped (p : Psg) (m : BitVec 1) (r : BitVec 2) : (p.noiseWrite m r).wrDropped = p.wrDropped := rfl
@[simp] theorem Psg.noiseWrite_syncPending (p : Psg) (m : BitVec 1) (r : BitVec 2) : (p.noiseWrite m r).syncPending = p.syncPending := rfl
@[simp] theorem Psg.noiseWrite_worker (p : Psg) (m : BitVec 1) (r : BitVec 2) : (p.noiseWrite m r).worker = p.worker := rfl

/-! `Psg.setTone` -/

@[simp] theorem Psg.setTone_period (p : Psg) (c : Fin 3) (n : Int) (b : Bool) : (p.setTone c n b).period = p.period := rfl
@[simp] theorem Psg.setTone_vol (p : Psg) (c : Fin 3) (n : Int) (b : Bool) : (p.setTone c n b).vol = p.vol := rfl
@[simp] theorem Psg.setTone_nrate (p : Psg) (c : Fin 3) (n : Int) (b : Bool) : (p.setTone c n b).nrate = p.nrate := rfl
@[simp] theorem Psg.setTone_nmode (p : Psg) (c : Fin 3) (n : Int) (b : Bool) : (p.setTone c n b).nmode = p.nmode := rfl
@[simp] theorem Psg.setTone_latchCh (p : Psg) (c : Fin 3) (n : Int) (b : Bool) : (p.setTone c n b).latchCh = p.latchCh := rfl
@[simp] theorem Psg.setTone_latchType (p : Psg) (c : Fin 3) (n : Int) (b : Bool) : (p.setTone c n b).latchType = p.latchType := rfl
@[simp] theorem Psg.setTone_tcnt (p : Psg) (c : Fin 3) (n : Int) (b : Bool) : (p.setTone c n b).tcnt = p.tcnt.set c n := rfl
@[simp] theorem Psg.setTone_tpol (p : Psg) (c : Fin 3) (n : Int) (b : Bool) : (p.setTone c n b).tpol = p.tpol.set c b := rfl
@[simp] theorem Psg.setTone_lfsr (p : Psg) (c : Fin 3) (n : Int) (b : Bool) : (p.setTone c n b).lfsr = p.lfsr := rfl
@[simp] theorem Psg.setTone_ncnt (p : Psg) (c : Fin 3) (n : Int) (b : Bool) : (p.setTone c n b).ncnt = p.ncnt := rfl
@[simp] theorem Psg.setTone_nff (p : Psg) (c : Fin 3) (n : Int) (b : Bool) : (p.setTone c n b).nff = p.nff := rfl
@[simp] theorem Psg.setTone_npol (p : Psg) (c : Fin 3) (n : Int) (b : Bool) : (p.setTone c n b).npol = p.npol := rfl
@[simp] theorem Psg.setTone_q (p : Psg) (c : Fin 3) (n : Int) (b : Bool) : (p.setTone c n b).q = p.q := rfl
@[simp] theorem Psg.setTone_credit (p : Psg) (c : Fin 3) (n : Int) (b : Bool) : (p.setTone c n b).credit = p.credit := rfl
@[simp] theorem Psg.setTone_cbAcc (p : Psg) (c : Fin 3) (n : Int) (b : Bool) : (p.setTone c n b).cbAcc = p.cbAcc := rfl
@[simp] theorem Psg.setTone_wrDropped (p : Psg) (c : Fin 3) (n : Int) (b : Bool) : (p.setTone c n b).wrDropped = p.wrDropped := rfl
@[simp] theorem Psg.setTone_syncPending (p : Psg) (c : Fin 3) (n : Int) (b : Bool) : (p.setTone c n b).syncPending = p.syncPending := rfl
@[simp] theorem Psg.setTone_worker (p : Psg) (c : Fin 3) (n : Int) (b : Bool) : (p.setTone c n b).worker = p.worker := rfl

/-! `Psg.setNoiseCount` -/

@[simp] theorem Psg.setNoiseCount_period (p : Psg) (n : Int) (f : Bool) : (p.setNoiseCount n f).period = p.period := rfl
@[simp] theorem Psg.setNoiseCount_vol (p : Psg) (n : Int) (f : Bool) : (p.setNoiseCount n f).vol = p.vol := rfl
@[simp] theorem Psg.setNoiseCount_nrate (p : Psg) (n : Int) (f : Bool) : (p.setNoiseCount n f).nrate = p.nrate := rfl
@[simp] theorem Psg.setNoiseCount_nmode (p : Psg) (n : Int) (f : Bool) : (p.setNoiseCount n f).nmode = p.nmode := rfl
@[simp] theorem Psg.setNoiseCount_latchCh (p : Psg) (n : Int) (f : Bool) : (p.setNoiseCount n f).latchCh = p.latchCh := rfl
@[simp] theorem Psg.setNoiseCount_latchType (p : Psg) (n : Int) (f : Bool) : (p.setNoiseCount n f).latchType = p.latchType := rfl
@[simp] theorem Psg.setNoiseCount_tcnt (p : Psg) (n : Int) (f : Bool) : (p.setNoiseCount n f).tcnt = p.tcnt := rfl
@[simp] theorem Psg.setNoiseCount_tpol (p : Psg) (n : Int) (f : Bool) : (p.setNoiseCount n f).tpol = p.tpol := rfl
@[simp] theorem Psg.setNoiseCount_lfsr (p : Psg) (n : Int) (f : Bool) : (p.setNoiseCount n f).lfsr = p.lfsr := rfl
@[simp] theorem Psg.setNoiseCount_ncnt (p : Psg) (n : Int) (f : Bool) : (p.setNoiseCount n f).ncnt = n := rfl
@[simp] theorem Psg.setNoiseCount_nff (p : Psg) (n : Int) (f : Bool) : (p.setNoiseCount n f).nff = f := rfl
@[simp] theorem Psg.setNoiseCount_npol (p : Psg) (n : Int) (f : Bool) : (p.setNoiseCount n f).npol = p.npol := rfl
@[simp] theorem Psg.setNoiseCount_q (p : Psg) (n : Int) (f : Bool) : (p.setNoiseCount n f).q = p.q := rfl
@[simp] theorem Psg.setNoiseCount_credit (p : Psg) (n : Int) (f : Bool) : (p.setNoiseCount n f).credit = p.credit := rfl
@[simp] theorem Psg.setNoiseCount_cbAcc (p : Psg) (n : Int) (f : Bool) : (p.setNoiseCount n f).cbAcc = p.cbAcc := rfl
@[simp] theorem Psg.setNoiseCount_wrDropped (p : Psg) (n : Int) (f : Bool) : (p.setNoiseCount n f).wrDropped = p.wrDropped := rfl
@[simp] theorem Psg.setNoiseCount_syncPending (p : Psg) (n : Int) (f : Bool) : (p.setNoiseCount n f).syncPending = p.syncPending := rfl
@[simp] theorem Psg.setNoiseCount_worker (p : Psg) (n : Int) (f : Bool) : (p.setNoiseCount n f).worker = p.worker := rfl

/-! `Psg.setLfsr` -/

@[simp] theorem Psg.setLfsr_period (p : Psg) (l : BitVec 16) (b : Bool) : (p.setLfsr l b).period = p.period := rfl
@[simp] theorem Psg.setLfsr_vol (p : Psg) (l : BitVec 16) (b : Bool) : (p.setLfsr l b).vol = p.vol := rfl
@[simp] theorem Psg.setLfsr_nrate (p : Psg) (l : BitVec 16) (b : Bool) : (p.setLfsr l b).nrate = p.nrate := rfl
@[simp] theorem Psg.setLfsr_nmode (p : Psg) (l : BitVec 16) (b : Bool) : (p.setLfsr l b).nmode = p.nmode := rfl
@[simp] theorem Psg.setLfsr_latchCh (p : Psg) (l : BitVec 16) (b : Bool) : (p.setLfsr l b).latchCh = p.latchCh := rfl
@[simp] theorem Psg.setLfsr_latchType (p : Psg) (l : BitVec 16) (b : Bool) : (p.setLfsr l b).latchType = p.latchType := rfl
@[simp] theorem Psg.setLfsr_tcnt (p : Psg) (l : BitVec 16) (b : Bool) : (p.setLfsr l b).tcnt = p.tcnt := rfl
@[simp] theorem Psg.setLfsr_tpol (p : Psg) (l : BitVec 16) (b : Bool) : (p.setLfsr l b).tpol = p.tpol := rfl
@[simp] theorem Psg.setLfsr_lfsr (p : Psg) (l : BitVec 16) (b : Bool) : (p.setLfsr l b).lfsr = l := rfl
@[simp] theorem Psg.setLfsr_ncnt (p : Psg) (l : BitVec 16) (b : Bool) : (p.setLfsr l b).ncnt = p.ncnt := rfl
@[simp] theorem Psg.setLfsr_nff (p : Psg) (l : BitVec 16) (b : Bool) : (p.setLfsr l b).nff = p.nff := rfl
@[simp] theorem Psg.setLfsr_npol (p : Psg) (l : BitVec 16) (b : Bool) : (p.setLfsr l b).npol = b := rfl
@[simp] theorem Psg.setLfsr_q (p : Psg) (l : BitVec 16) (b : Bool) : (p.setLfsr l b).q = p.q := rfl
@[simp] theorem Psg.setLfsr_credit (p : Psg) (l : BitVec 16) (b : Bool) : (p.setLfsr l b).credit = p.credit := rfl
@[simp] theorem Psg.setLfsr_cbAcc (p : Psg) (l : BitVec 16) (b : Bool) : (p.setLfsr l b).cbAcc = p.cbAcc := rfl
@[simp] theorem Psg.setLfsr_wrDropped (p : Psg) (l : BitVec 16) (b : Bool) : (p.setLfsr l b).wrDropped = p.wrDropped := rfl
@[simp] theorem Psg.setLfsr_syncPending (p : Psg) (l : BitVec 16) (b : Bool) : (p.setLfsr l b).syncPending = p.syncPending := rfl
@[simp] theorem Psg.setLfsr_worker (p : Psg) (l : BitVec 16) (b : Bool) : (p.setLfsr l b).worker = p.worker := rfl

/-! `Psg.setCbAcc` -/

@[simp] theorem Psg.setCbAcc_period (p : Psg) (n : Nat) : (p.setCbAcc n).period = p.period := rfl
@[simp] theorem Psg.setCbAcc_vol (p : Psg) (n : Nat) : (p.setCbAcc n).vol = p.vol := rfl
@[simp] theorem Psg.setCbAcc_nrate (p : Psg) (n : Nat) : (p.setCbAcc n).nrate = p.nrate := rfl
@[simp] theorem Psg.setCbAcc_nmode (p : Psg) (n : Nat) : (p.setCbAcc n).nmode = p.nmode := rfl
@[simp] theorem Psg.setCbAcc_latchCh (p : Psg) (n : Nat) : (p.setCbAcc n).latchCh = p.latchCh := rfl
@[simp] theorem Psg.setCbAcc_latchType (p : Psg) (n : Nat) : (p.setCbAcc n).latchType = p.latchType := rfl
@[simp] theorem Psg.setCbAcc_tcnt (p : Psg) (n : Nat) : (p.setCbAcc n).tcnt = p.tcnt := rfl
@[simp] theorem Psg.setCbAcc_tpol (p : Psg) (n : Nat) : (p.setCbAcc n).tpol = p.tpol := rfl
@[simp] theorem Psg.setCbAcc_lfsr (p : Psg) (n : Nat) : (p.setCbAcc n).lfsr = p.lfsr := rfl
@[simp] theorem Psg.setCbAcc_ncnt (p : Psg) (n : Nat) : (p.setCbAcc n).ncnt = p.ncnt := rfl
@[simp] theorem Psg.setCbAcc_nff (p : Psg) (n : Nat) : (p.setCbAcc n).nff = p.nff := rfl
@[simp] theorem Psg.setCbAcc_npol (p : Psg) (n : Nat) : (p.setCbAcc n).npol = p.npol := rfl
@[simp] theorem Psg.setCbAcc_q (p : Psg) (n : Nat) : (p.setCbAcc n).q = p.q := rfl
@[simp] theorem Psg.setCbAcc_credit (p : Psg) (n : Nat) : (p.setCbAcc n).credit = p.credit := rfl
@[simp] theorem Psg.setCbAcc_cbAcc (p : Psg) (n : Nat) : (p.setCbAcc n).cbAcc = n := rfl
@[simp] theorem Psg.setCbAcc_wrDropped (p : Psg) (n : Nat) : (p.setCbAcc n).wrDropped = p.wrDropped := rfl
@[simp] theorem Psg.setCbAcc_syncPending (p : Psg) (n : Nat) : (p.setCbAcc n).syncPending = p.syncPending := rfl
@[simp] theorem Psg.setCbAcc_worker (p : Psg) (n : Nat) : (p.setCbAcc n).worker = p.worker := rfl

/-! `Psg.setSync` -/

@[simp] theorem Psg.setSync_period (p : Psg) (b : Bool) : (p.setSync b).period = p.period := rfl
@[simp] theorem Psg.setSync_vol (p : Psg) (b : Bool) : (p.setSync b).vol = p.vol := rfl
@[simp] theorem Psg.setSync_nrate (p : Psg) (b : Bool) : (p.setSync b).nrate = p.nrate := rfl
@[simp] theorem Psg.setSync_nmode (p : Psg) (b : Bool) : (p.setSync b).nmode = p.nmode := rfl
@[simp] theorem Psg.setSync_latchCh (p : Psg) (b : Bool) : (p.setSync b).latchCh = p.latchCh := rfl
@[simp] theorem Psg.setSync_latchType (p : Psg) (b : Bool) : (p.setSync b).latchType = p.latchType := rfl
@[simp] theorem Psg.setSync_tcnt (p : Psg) (b : Bool) : (p.setSync b).tcnt = p.tcnt := rfl
@[simp] theorem Psg.setSync_tpol (p : Psg) (b : Bool) : (p.setSync b).tpol = p.tpol := rfl
@[simp] theorem Psg.setSync_lfsr (p : Psg) (b : Bool) : (p.setSync b).lfsr = p.lfsr := rfl
@[simp] theorem Psg.setSync_ncnt (p : Psg) (b : Bool) : (p.setSync b).ncnt = p.ncnt := rfl
@[simp] theorem Psg.setSync_nff (p : Psg) (b : Bool) : (p.setSync b).nff = p.nff := rfl
@[simp] theorem Psg.setSync_npol (p : Psg) (b : Bool) : (p.setSync b).npol = p.npol := rfl
@[simp] theorem Psg.setSync_q (p : Psg) (b : Bool) : (p.setSync b).q = p.q := rfl
@[simp] theorem Psg.setSync_credit (p : Psg) (b : Bool) : (p.setSync b).credit = p.credit := rfl
@[simp] theorem Psg.setSync_cbAcc (p : Psg) (b : Bool) : (p.setSync b).cbAcc = p.cbAcc := rfl
@[simp] theorem Psg.setSync_wrDropped (p : Psg) (b : Bool) : (p.setSync b).wrDropped = p.wrDropped := rfl
@[simp] theorem Psg.setSync_syncPending (p : Psg) (b : Bool) : (p.setSync b).syncPending = b := rfl
@[simp] theorem Psg.setSync_worker (p : Psg) (b : Bool) : (p.setSync b).worker = p.worker := rfl

/-! `Psg.setWorker` -/

@[simp] theorem Psg.setWorker_period (p : Psg) (w : Worker) : (p.setWorker w).period = p.period := rfl
@[simp] theorem Psg.setWorker_vol (p : Psg) (w : Worker) : (p.setWorker w).vol = p.vol := rfl
@[simp] theorem Psg.setWorker_nrate (p : Psg) (w : Worker) : (p.setWorker w).nrate = p.nrate := rfl
@[simp] theorem Psg.setWorker_nmode (p : Psg) (w : Worker) : (p.setWorker w).nmode = p.nmode := rfl
@[simp] theorem Psg.setWorker_latchCh (p : Psg) (w : Worker) : (p.setWorker w).latchCh = p.latchCh := rfl
@[simp] theorem Psg.setWorker_latchType (p : Psg) (w : Worker) : (p.setWorker w).latchType = p.latchType := rfl
@[simp] theorem Psg.setWorker_tcnt (p : Psg) (w : Worker) : (p.setWorker w).tcnt = p.tcnt := rfl
@[simp] theorem Psg.setWorker_tpol (p : Psg) (w : Worker) : (p.setWorker w).tpol = p.tpol := rfl
@[simp] theorem Psg.setWorker_lfsr (p : Psg) (w : Worker) : (p.setWorker w).lfsr = p.lfsr := rfl
@[simp] theorem Psg.setWorker_ncnt (p : Psg) (w : Worker) : (p.setWorker w).ncnt = p.ncnt := rfl
@[simp] theorem Psg.setWorker_nff (p : Psg) (w : Worker) : (p.setWorker w).nff = p.nff := rfl
@[simp] theorem Psg.setWorker_npol (p : Psg) (w : Worker) : (p.setWorker w).npol = p.npol := rfl
@[simp] theorem Psg.setWorker_q (p : Psg) (w : Worker) : (p.setWorker w).q = p.q := rfl
@[simp] theorem Psg.setWorker_credit (p : Psg) (w : Worker) : (p.setWorker w).credit = p.credit := rfl
@[simp] theorem Psg.setWorker_cbAcc (p : Psg) (w : Worker) : (p.setWorker w).cbAcc = p.cbAcc := rfl
@[simp] theorem Psg.setWorker_wrDropped (p : Psg) (w : Worker) : (p.setWorker w).wrDropped = p.wrDropped := rfl
@[simp] theorem Psg.setWorker_syncPending (p : Psg) (w : Worker) : (p.setWorker w).syncPending = p.syncPending := rfl
@[simp] theorem Psg.setWorker_worker (p : Psg) (w : Worker) : (p.setWorker w).worker = w := rfl

/-! `Psg.addCredit` -/

@[simp] theorem Psg.addCredit_period (p : Psg) (n : Nat) : (p.addCredit n).period = p.period := rfl
@[simp] theorem Psg.addCredit_vol (p : Psg) (n : Nat) : (p.addCredit n).vol = p.vol := rfl
@[simp] theorem Psg.addCredit_nrate (p : Psg) (n : Nat) : (p.addCredit n).nrate = p.nrate := rfl
@[simp] theorem Psg.addCredit_nmode (p : Psg) (n : Nat) : (p.addCredit n).nmode = p.nmode := rfl
@[simp] theorem Psg.addCredit_latchCh (p : Psg) (n : Nat) : (p.addCredit n).latchCh = p.latchCh := rfl
@[simp] theorem Psg.addCredit_latchType (p : Psg) (n : Nat) : (p.addCredit n).latchType = p.latchType := rfl
@[simp] theorem Psg.addCredit_tcnt (p : Psg) (n : Nat) : (p.addCredit n).tcnt = p.tcnt := rfl
@[simp] theorem Psg.addCredit_tpol (p : Psg) (n : Nat) : (p.addCredit n).tpol = p.tpol := rfl
@[simp] theorem Psg.addCredit_lfsr (p : Psg) (n : Nat) : (p.addCredit n).lfsr = p.lfsr := rfl
@[simp] theorem Psg.addCredit_ncnt (p : Psg) (n : Nat) : (p.addCredit n).ncnt = p.ncnt := rfl
@[simp] theorem Psg.addCredit_nff (p : Psg) (n : Nat) : (p.addCredit n).nff = p.nff := rfl
@[simp] theorem Psg.addCredit_npol (p : Psg) (n : Nat) : (p.addCredit n).npol = p.npol := rfl
@[simp] theorem Psg.addCredit_q (p : Psg) (n : Nat) : (p.addCredit n).q = p.q := rfl
@[simp] theorem Psg.addCredit_credit (p : Psg) (n : Nat) : (p.addCredit n).credit = p.credit + n := rfl
@[simp] theorem Psg.addCredit_cbAcc (p : Psg) (n : Nat) : (p.addCredit n).cbAcc = p.cbAcc := rfl
@[simp] theorem Psg.addCredit_wrDropped (p : Psg) (n : Nat) : (p.addCredit n).wrDropped = p.wrDropped := rfl
@[simp] theorem Psg.addCredit_syncPending (p : Psg) (n : Nat) : (p.addCredit n).syncPending = p.syncPending := rfl
@[simp] theorem Psg.addCredit_worker (p : Psg) (n : Nat) : (p.addCredit n).worker = p.worker := rfl

/-! `Psg.takeCredit` -/

@[simp] theorem Psg.takeCredit_period (p : Psg) : (p.takeCredit).period = p.period := by cases p; rfl
@[simp] theorem Psg.takeCredit_vol (p : Psg) : (p.takeCredit).vol = p.vol := by cases p; rfl
@[simp] theorem Psg.takeCredit_nrate (p : Psg) : (p.takeCredit).nrate = p.nrate := by cases p; rfl
@[simp] theorem Psg.takeCredit_nmode (p : Psg) : (p.takeCredit).nmode = p.nmode := by cases p; rfl
@[simp] theorem Psg.takeCredit_latchCh (p : Psg) : (p.takeCredit).latchCh = p.latchCh := by cases p; rfl
@[simp] theorem Psg.takeCredit_latchType (p : Psg) : (p.takeCredit).latchType = p.latchType := by cases p; rfl
@[simp] theorem Psg.takeCredit_tcnt (p : Psg) : (p.takeCredit).tcnt = p.tcnt := by cases p; rfl
@[simp] theorem Psg.takeCredit_tpol (p : Psg) : (p.takeCredit).tpol = p.tpol := by cases p; rfl
@[simp] theorem Psg.takeCredit_lfsr (p : Psg) : (p.takeCredit).lfsr = p.lfsr := by cases p; rfl
@[simp] theorem Psg.takeCredit_ncnt (p : Psg) : (p.takeCredit).ncnt = p.ncnt := by cases p; rfl
@[simp] theorem Psg.takeCredit_nff (p : Psg) : (p.takeCredit).nff = p.nff := by cases p; rfl
@[simp] theorem Psg.takeCredit_npol (p : Psg) : (p.takeCredit).npol = p.npol := by cases p; rfl
@[simp] theorem Psg.takeCredit_q (p : Psg) : (p.takeCredit).q = p.q := by cases p; rfl
@[simp] theorem Psg.takeCredit_credit (p : Psg) : (p.takeCredit).credit = p.credit - 16 := by cases p; rfl
@[simp] theorem Psg.takeCredit_cbAcc (p : Psg) : (p.takeCredit).cbAcc = p.cbAcc := by cases p; rfl
@[simp] theorem Psg.takeCredit_wrDropped (p : Psg) : (p.takeCredit).wrDropped = p.wrDropped := by cases p; rfl
@[simp] theorem Psg.takeCredit_syncPending (p : Psg) : (p.takeCredit).syncPending = p.syncPending := by cases p; rfl
@[simp] theorem Psg.takeCredit_worker (p : Psg) : (p.takeCredit).worker = p.worker := by cases p; rfl

/-! `Psg.qPush` -/

@[simp] theorem Psg.qPush_period (p : Psg) (b : Byte) : (p.qPush b).period = p.period := rfl
@[simp] theorem Psg.qPush_vol (p : Psg) (b : Byte) : (p.qPush b).vol = p.vol := rfl
@[simp] theorem Psg.qPush_nrate (p : Psg) (b : Byte) : (p.qPush b).nrate = p.nrate := rfl
@[simp] theorem Psg.qPush_nmode (p : Psg) (b : Byte) : (p.qPush b).nmode = p.nmode := rfl
@[simp] theorem Psg.qPush_latchCh (p : Psg) (b : Byte) : (p.qPush b).latchCh = p.latchCh := rfl
@[simp] theorem Psg.qPush_latchType (p : Psg) (b : Byte) : (p.qPush b).latchType = p.latchType := rfl
@[simp] theorem Psg.qPush_tcnt (p : Psg) (b : Byte) : (p.qPush b).tcnt = p.tcnt := rfl
@[simp] theorem Psg.qPush_tpol (p : Psg) (b : Byte) : (p.qPush b).tpol = p.tpol := rfl
@[simp] theorem Psg.qPush_lfsr (p : Psg) (b : Byte) : (p.qPush b).lfsr = p.lfsr := rfl
@[simp] theorem Psg.qPush_ncnt (p : Psg) (b : Byte) : (p.qPush b).ncnt = p.ncnt := rfl
@[simp] theorem Psg.qPush_nff (p : Psg) (b : Byte) : (p.qPush b).nff = p.nff := rfl
@[simp] theorem Psg.qPush_npol (p : Psg) (b : Byte) : (p.qPush b).npol = p.npol := rfl
@[simp] theorem Psg.qPush_q (p : Psg) (b : Byte) : (p.qPush b).q = p.q ++ [b] := rfl
@[simp] theorem Psg.qPush_credit (p : Psg) (b : Byte) : (p.qPush b).credit = p.credit := rfl
@[simp] theorem Psg.qPush_cbAcc (p : Psg) (b : Byte) : (p.qPush b).cbAcc = p.cbAcc := rfl
@[simp] theorem Psg.qPush_wrDropped (p : Psg) (b : Byte) : (p.qPush b).wrDropped = p.wrDropped := rfl
@[simp] theorem Psg.qPush_syncPending (p : Psg) (b : Byte) : (p.qPush b).syncPending = p.syncPending := rfl
@[simp] theorem Psg.qPush_worker (p : Psg) (b : Byte) : (p.qPush b).worker = p.worker := rfl

/-! `Psg.qDrop` -/

@[simp] theorem Psg.qDrop_period (p : Psg) : (p.qDrop).period = p.period := rfl
@[simp] theorem Psg.qDrop_vol (p : Psg) : (p.qDrop).vol = p.vol := rfl
@[simp] theorem Psg.qDrop_nrate (p : Psg) : (p.qDrop).nrate = p.nrate := rfl
@[simp] theorem Psg.qDrop_nmode (p : Psg) : (p.qDrop).nmode = p.nmode := rfl
@[simp] theorem Psg.qDrop_latchCh (p : Psg) : (p.qDrop).latchCh = p.latchCh := rfl
@[simp] theorem Psg.qDrop_latchType (p : Psg) : (p.qDrop).latchType = p.latchType := rfl
@[simp] theorem Psg.qDrop_tcnt (p : Psg) : (p.qDrop).tcnt = p.tcnt := rfl
@[simp] theorem Psg.qDrop_tpol (p : Psg) : (p.qDrop).tpol = p.tpol := rfl
@[simp] theorem Psg.qDrop_lfsr (p : Psg) : (p.qDrop).lfsr = p.lfsr := rfl
@[simp] theorem Psg.qDrop_ncnt (p : Psg) : (p.qDrop).ncnt = p.ncnt := rfl
@[simp] theorem Psg.qDrop_nff (p : Psg) : (p.qDrop).nff = p.nff := rfl
@[simp] theorem Psg.qDrop_npol (p : Psg) : (p.qDrop).npol = p.npol := rfl
@[simp] theorem Psg.qDrop_q (p : Psg) : (p.qDrop).q = p.q.tail := rfl
@[simp] theorem Psg.qDrop_credit (p : Psg) : (p.qDrop).credit = p.credit := rfl
@[simp] theorem Psg.qDrop_cbAcc (p : Psg) : (p.qDrop).cbAcc = p.cbAcc := rfl
@[simp] theorem Psg.qDrop_wrDropped (p : Psg) : (p.qDrop).wrDropped = p.wrDropped := rfl
@[simp] theorem Psg.qDrop_syncPending (p : Psg) : (p.qDrop).syncPending = p.syncPending := rfl
@[simp] theorem Psg.qDrop_worker (p : Psg) : (p.qDrop).worker = p.worker := rfl

/-! `Psg.dropWrite` -/

@[simp] theorem Psg.dropWrite_period (p : Psg) : (p.dropWrite).period = p.period := rfl
@[simp] theorem Psg.dropWrite_vol (p : Psg) : (p.dropWrite).vol = p.vol := rfl
@[simp] theorem Psg.dropWrite_nrate (p : Psg) : (p.dropWrite).nrate = p.nrate := rfl
@[simp] theorem Psg.dropWrite_nmode (p : Psg) : (p.dropWrite).nmode = p.nmode := rfl
@[simp] theorem Psg.dropWrite_latchCh (p : Psg) : (p.dropWrite).latchCh = p.latchCh := rfl
@[simp] theorem Psg.dropWrite_latchType (p : Psg) : (p.dropWrite).latchType = p.latchType := rfl
@[simp] theorem Psg.dropWrite_tcnt (p : Psg) : (p.dropWrite).tcnt = p.tcnt := rfl
@[simp] theorem Psg.dropWrite_tpol (p : Psg) : (p.dropWrite).tpol = p.tpol := rfl
@[simp] theorem Psg.dropWrite_lfsr (p : Psg) : (p.dropWrite).lfsr = p.lfsr := rfl
@[simp] theorem Psg.dropWrite_ncnt (p : Psg) : (p.dropWrite).ncnt = p.ncnt := rfl
@[simp] theorem Psg.dropWrite_nff (p : Psg) : (p.dropWrite).nff = p.nff := rfl
@[simp] theorem Psg.dropWrite_npol (p : Psg) : (p.dropWrite).npol = p.npol := rfl
@[simp] theorem Psg.dropWrite_q (p : Psg) : (p.dropWrite).q = p.q := rfl
@[simp] theorem Psg.dropWrite_credit (p : Psg) : (p.dropWrite).credit = p.credit := rfl
@[simp] theorem Psg.dropWrite_cbAcc (p : Psg) : (p.dropWrite).cbAcc = p.cbAcc := rfl
@[simp] theorem Psg.dropWrite_wrDropped (p : Psg) : (p.dropWrite).wrDropped = p.wrDropped + 1 := rfl
@[simp] theorem Psg.dropWrite_syncPending (p : Psg) : (p.dropWrite).syncPending = p.syncPending := rfl
@[simp] theorem Psg.dropWrite_worker (p : Psg) : (p.dropWrite).worker = p.worker := rfl

/-! `Video.memWrite` -/

@[simp] theorem Video.memWrite_mem (v : Video) (c : Config) (b : Fin 2) (i r : Nat) (x : Byte) : (Video.memWrite c v b i r x).mem = v.mem.write c (c.cellAddr b i r) x := rfl
@[simp] theorem Video.memWrite_draw (v : Video) (c : Config) (b : Fin 2) (i r : Nat) (x : Byte) : (Video.memWrite c v b i r x).draw = v.draw := rfl
@[simp] theorem Video.memWrite_slot (v : Video) (c : Config) (b : Fin 2) (i r : Nat) (x : Byte) : (Video.memWrite c v b i r x).slot = v.slot := rfl
@[simp] theorem Video.memWrite_txActive (v : Video) (c : Config) (b : Fin 2) (i r : Nat) (x : Byte) : (Video.memWrite c v b i r x).txActive = v.txActive := rfl
@[simp] theorem Video.memWrite_txBuf (v : Video) (c : Config) (b : Fin 2) (i r : Nat) (x : Byte) : (Video.memWrite c v b i r x).txBuf = v.txBuf := rfl
@[simp] theorem Video.memWrite_txPart (v : Video) (c : Config) (b : Fin 2) (i r : Nat) (x : Byte) : (Video.memWrite c v b i r x).txPart = v.txPart := rfl
@[simp] theorem Video.memWrite_droppedFrames (v : Video) (c : Config) (b : Fin 2) (i r : Nat) (x : Byte) : (Video.memWrite c v b i r x).droppedFrames = v.droppedFrames := rfl

/-! `Video.handOver` -/

@[simp] theorem Video.handOver_mem (v : Video) : (v.handOver).mem = v.mem := rfl
@[simp] theorem Video.handOver_draw (v : Video) : (v.handOver).draw = otherBuf v.draw := rfl
@[simp] theorem Video.handOver_slot (v : Video) : (v.handOver).slot = some v.draw := rfl
@[simp] theorem Video.handOver_txActive (v : Video) : (v.handOver).txActive = v.txActive := rfl
@[simp] theorem Video.handOver_txBuf (v : Video) : (v.handOver).txBuf = v.txBuf := rfl
@[simp] theorem Video.handOver_txPart (v : Video) : (v.handOver).txPart = v.txPart := rfl
@[simp] theorem Video.handOver_droppedFrames (v : Video) : (v.handOver).droppedFrames = v.droppedFrames := rfl

/-! `Video.dropFrame` -/

@[simp] theorem Video.dropFrame_mem (v : Video) : (v.dropFrame).mem = v.mem := rfl
@[simp] theorem Video.dropFrame_draw (v : Video) : (v.dropFrame).draw = v.draw := rfl
@[simp] theorem Video.dropFrame_slot (v : Video) : (v.dropFrame).slot = v.slot := rfl
@[simp] theorem Video.dropFrame_txActive (v : Video) : (v.dropFrame).txActive = v.txActive := rfl
@[simp] theorem Video.dropFrame_txBuf (v : Video) : (v.dropFrame).txBuf = v.txBuf := rfl
@[simp] theorem Video.dropFrame_txPart (v : Video) : (v.dropFrame).txPart = v.txPart := rfl
@[simp] theorem Video.dropFrame_droppedFrames (v : Video) : (v.dropFrame).droppedFrames = v.droppedFrames + 1 := rfl

/-! `Video.takeSlot` -/

@[simp] theorem Video.takeSlot_mem (v : Video) (b : Fin 2) : (v.takeSlot b).mem = v.mem := rfl
@[simp] theorem Video.takeSlot_draw (v : Video) (b : Fin 2) : (v.takeSlot b).draw = v.draw := rfl
@[simp] theorem Video.takeSlot_slot (v : Video) (b : Fin 2) : (v.takeSlot b).slot = none := rfl
@[simp] theorem Video.takeSlot_txActive (v : Video) (b : Fin 2) : (v.takeSlot b).txActive = true := rfl
@[simp] theorem Video.takeSlot_txBuf (v : Video) (b : Fin 2) : (v.takeSlot b).txBuf = b := rfl
@[simp] theorem Video.takeSlot_txPart (v : Video) (b : Fin 2) : (v.takeSlot b).txPart = 0 := rfl
@[simp] theorem Video.takeSlot_droppedFrames (v : Video) (b : Fin 2) : (v.takeSlot b).droppedFrames = v.droppedFrames := rfl

/-! `Video.nextPart` -/

@[simp] theorem Video.nextPart_mem (v : Video) : (v.nextPart).mem = v.mem := rfl
@[simp] theorem Video.nextPart_draw (v : Video) : (v.nextPart).draw = v.draw := rfl
@[simp] theorem Video.nextPart_slot (v : Video) : (v.nextPart).slot = v.slot := rfl
@[simp] theorem Video.nextPart_txActive (v : Video) : (v.nextPart).txActive = v.txActive := rfl
@[simp] theorem Video.nextPart_txBuf (v : Video) : (v.nextPart).txBuf = v.txBuf := rfl
@[simp] theorem Video.nextPart_txPart (v : Video) : (v.nextPart).txPart = v.txPart + 1 := rfl
@[simp] theorem Video.nextPart_droppedFrames (v : Video) : (v.nextPart).droppedFrames = v.droppedFrames := rfl

/-! `Video.endTx` -/

@[simp] theorem Video.endTx_mem (v : Video) : (v.endTx).mem = v.mem := rfl
@[simp] theorem Video.endTx_draw (v : Video) : (v.endTx).draw = v.draw := rfl
@[simp] theorem Video.endTx_slot (v : Video) : (v.endTx).slot = v.slot := rfl
@[simp] theorem Video.endTx_txActive (v : Video) : (v.endTx).txActive = false := rfl
@[simp] theorem Video.endTx_txBuf (v : Video) : (v.endTx).txBuf = v.txBuf := rfl
@[simp] theorem Video.endTx_txPart (v : Video) : (v.endTx).txPart = v.txPart := rfl
@[simp] theorem Video.endTx_droppedFrames (v : Video) : (v.endTx).droppedFrames = v.droppedFrames := rfl

end Sys2Proof.Machine
end

