-- ==== Sys2Proof/Laws/Commands.lean ====
section
/-! SUPPORT. What a command can do to the PSG state (R175, R176, R183): the registers, the latch and the LFSR reset;
nothing else. -/

namespace Sys2Proof.Machine

theorem toneChannel_eq_some {ch : Fin 4} {c : Fin 3} : toneChannel ch = some c ↔ ch.val = c.val := by
  unfold toneChannel
  split
  · simp [Fin.ext_iff]
  · simp only [reduceCtorEq, false_iff]
    omega

theorem toneChannel_eq_none {ch : Fin 4} : toneChannel ch = none ↔ ch = 3 := by
  revert ch
  decide

/-- DATA with the latch at a volume (R185). -/
theorem Psg.dataWrite_volume (cfg : Config) (p : Psg) (d : BitVec 6) (h : p.latchType = .volume) :
    p.dataWrite cfg d = p.setVol p.latchCh (lowNibble d) := by
  simp [Psg.dataWrite, h]

/-- DATA with the latch at a tone period (R184). -/
theorem Psg.dataWrite_tone (cfg : Config) (p : Psg) (d : BitVec 6) (c : Fin 3) (h : p.latchType = .tone)
    (hc : p.latchCh.val = c.val) : p.dataWrite cfg d = p.dataTone cfg c d := by
  simp [Psg.dataWrite, h, toneChannel_eq_some.2 hc]

/-- DATA with the latch at the noise control (R186). -/
theorem Psg.dataWrite_noise (cfg : Config) (p : Psg) (d : BitVec 6) (h : p.latchType = .tone) (hc : p.latchCh = 3) :
    p.dataWrite cfg d = p.noiseWrite (nibbleMode (lowNibble d)) (nibbleRate (lowNibble d)) := by
  simp [Psg.dataWrite, h, toneChannel_eq_none.2 hc]

/-- DATA is one of its three forms. -/
theorem Psg.dataWrite_cases (cfg : Config) (p : Psg) (d : BitVec 6) :
    (p.latchType = .volume ∧ p.dataWrite cfg d = p.setVol p.latchCh (lowNibble d)) ∨
    (∃ c : Fin 3, p.latchType = .tone ∧ p.latchCh.val = c.val ∧ p.dataWrite cfg d = p.dataTone cfg c d) ∨
    (p.latchType = .tone ∧ p.latchCh = 3 ∧
      p.dataWrite cfg d = p.noiseWrite (nibbleMode (lowNibble d)) (nibbleRate (lowNibble d))) := by
  cases ht : p.latchType with
  | volume => exact .inl ⟨rfl, p.dataWrite_volume cfg d ht⟩
  | tone =>
    cases hc : toneChannel p.latchCh with
    | some c => exact .inr (.inl ⟨c, rfl, toneChannel_eq_some.1 hc, p.dataWrite_tone cfg d c ht (toneChannel_eq_some.1 hc)⟩)
    | none => exact .inr (.inr ⟨rfl, toneChannel_eq_none.1 hc, p.dataWrite_noise cfg d ht (toneChannel_eq_none.1 hc)⟩)

/-- What any command leaves as it is (R175), and that it can only reset the LFSR. -/
theorem Psg.runCommand_frame (cfg : Config) (p : Psg) (k : Command) :
    p.runCommand cfg k = { p with
      latchCh := (p.runCommand cfg k).latchCh, latchType := (p.runCommand cfg k).latchType
      period := (p.runCommand cfg k).period, vol := (p.runCommand cfg k).vol
      lfsr := (p.runCommand cfg k).lfsr, nrate := (p.runCommand cfg k).nrate, nmode := (p.runCommand cfg k).nmode } ∧
    ((p.runCommand cfg k).lfsr = p.lfsr ∨ (p.runCommand cfg k).lfsr = lfsrReset) := by
  cases k with
  | ltone c n => exact ⟨rfl, .inl rfl⟩
  | lvol c v => exact ⟨rfl, .inl rfl⟩
  | lnoise m r => exact ⟨rfl, .inr rfl⟩
  | data d =>
    simp only [Psg.runCommand]
    rcases p.dataWrite_cases cfg d with ⟨-, h⟩ | ⟨c, -, -, h⟩ | ⟨-, -, h⟩ <;> rw [h]
    · exact ⟨rfl, .inl rfl⟩
    · exact ⟨rfl, .inl rfl⟩
    · exact ⟨rfl, .inr rfl⟩

/-- Item 1 of STEP (R123): at most the head byte leaves the queue; the rest is a command's frame. -/
theorem Psg.dequeue_frame (cfg : Config) (p : Psg) :
    p.dequeue cfg = { p with
      q := p.q.tail
      latchCh := (p.dequeue cfg).latchCh, latchType := (p.dequeue cfg).latchType
      period := (p.dequeue cfg).period, vol := (p.dequeue cfg).vol
      lfsr := (p.dequeue cfg).lfsr, nrate := (p.dequeue cfg).nrate, nmode := (p.dequeue cfg).nmode } ∧
    ((p.dequeue cfg).lfsr = p.lfsr ∨ (p.dequeue cfg).lfsr = lfsrReset) := by
  cases hq : p.q with
  | nil =>
    have e : p.dequeue cfg = p := by simp [Psg.dequeue, hq]
    rw [e]
    exact ⟨by rw [List.tail_nil, ← hq], .inl rfl⟩
  | cons b rest =>
    have e : p.dequeue cfg = p.qDrop.runCommand cfg (decodeCommand b) := by simp [Psg.dequeue, hq]
    have f := Psg.runCommand_frame cfg p.qDrop (decodeCommand b)
    rw [← e] at f
    refine ⟨?_, f.2⟩
    rw [List.tail_cons]
    conv_lhs => rw [f.1]
    simp [Psg.qDrop, hq]

@[simp] theorem Psg.dequeue_q (cfg : Config) (p : Psg) : (p.dequeue cfg).q = p.q.tail := by
  rw [(p.dequeue_frame cfg).1]
@[simp] theorem Psg.dequeue_tcnt (cfg : Config) (p : Psg) : (p.dequeue cfg).tcnt = p.tcnt := by
  rw [(p.dequeue_frame cfg).1]
@[simp] theorem Psg.dequeue_tpol (cfg : Config) (p : Psg) : (p.dequeue cfg).tpol = p.tpol := by
  rw [(p.dequeue_frame cfg).1]
@[simp] theorem Psg.dequeue_ncnt (cfg : Config) (p : Psg) : (p.dequeue cfg).ncnt = p.ncnt := by
  rw [(p.dequeue_frame cfg).1]
@[simp] theorem Psg.dequeue_nff (cfg : Config) (p : Psg) : (p.dequeue cfg).nff = p.nff := by
  rw [(p.dequeue_frame cfg).1]
@[simp] theorem Psg.dequeue_npol (cfg : Config) (p : Psg) : (p.dequeue cfg).npol = p.npol := by
  rw [(p.dequeue_frame cfg).1]
@[simp] theorem Psg.dequeue_credit (cfg : Config) (p : Psg) : (p.dequeue cfg).credit = p.credit := by
  rw [(p.dequeue_frame cfg).1]
@[simp] theorem Psg.dequeue_cbAcc (cfg : Config) (p : Psg) : (p.dequeue cfg).cbAcc = p.cbAcc := by
  rw [(p.dequeue_frame cfg).1]
@[simp] theorem Psg.dequeue_wrDropped (cfg : Config) (p : Psg) : (p.dequeue cfg).wrDropped = p.wrDropped := by
  rw [(p.dequeue_frame cfg).1]
@[simp] theorem Psg.dequeue_syncPending (cfg : Config) (p : Psg) : (p.dequeue cfg).syncPending = p.syncPending := by
  rw [(p.dequeue_frame cfg).1]
@[simp] theorem Psg.dequeue_worker (cfg : Config) (p : Psg) : (p.dequeue cfg).worker = p.worker := by
  rw [(p.dequeue_frame cfg).1]

theorem Psg.dequeue_empty (cfg : Config) (p : Psg) (h : p.q = []) : p.dequeue cfg = p := by simp [Psg.dequeue, h]

end Sys2Proof.Machine
end

