-- ==== Sys2Proof/Laws/Generators.lean ====
section
/-! SUPPORT. What the generators and the strobe divider do, each said once (R136, R146, R149, R165, R166). -/

namespace Sys2Proof.Machine

/-! ## The strobe divider -/

/-- With enough fuel the loop divides: it emits `acc / P` copies and leaves `acc % P`. -/
theorem strobeLoop_eq {P : Nat} (hP : P ≠ 0) (x : Strobe) (fuel acc : Nat) (out : List Strobe) (h : acc ≤ fuel) :
    strobeLoop P x fuel acc out = (acc % P, out ++ List.replicate (acc / P) x) := by
  induction fuel generalizing acc out with
  | zero =>
    have : acc = 0 := by omega
    subst this
    simp [strobeLoop]
  | succ fuel ih =>
    simp only [strobeLoop]
    split
    · rename_i hp
      rw [ih _ _ (by omega), ← Nat.mod_eq_sub_mod hp, Nat.div_eq_sub_div (by omega) hp, List.replicate_succ]
      simp
    · rename_i hp
      rw [Nat.mod_eq_of_lt (by omega), Nat.div_eq_of_lt (by omega)]
      simp

/-- `StrobeDivider` in closed form (R166). -/
theorem strobeDivider_eq (c : Config) (acc : Nat) (x : Strobe) (h : c.callbackPeriod ≠ 0) :
    strobeDivider c acc x =
      ((acc + 16) % c.callbackPeriod, List.replicate ((acc + 16) / c.callbackPeriod) x) := by
  rw [strobeDivider, strobeLoop_eq h _ _ _ _ (Nat.le_refl _), List.nil_append]

/-! ## The tone generators -/

/-- A tone generator writes its own counter and polarity and nothing else (R125, R135). -/
theorem Psg.toneAdvance_frame (p : Psg) (c : Fin 3) :
    p.toneAdvance c = p.setTone c (p.toneAdvance c).tcnt[c] (p.toneAdvance c).tpol[c] := by
  unfold Psg.toneAdvance
  split
  · split <;> simp [Psg.setTone]
  · simp [Psg.setTone]

/-- What a tone generator leaves in its channel (R136), with the decisions written as propositions. -/
theorem Psg.toneAdvance_channel (p : Psg) (c : Fin 3) :
    ((p.toneAdvance c).tcnt[c], (p.toneAdvance c).tpol[c]) =
      if 0 < p.tcnt[c] ∨ 8 ≤ p.period[c].toNat then
        (if p.tcnt[c] - 16 ≤ 0 then
          (((p.period[c].toNat * 16 : Nat) : Int), if p.period[c] = 1 then p.tpol[c] else !p.tpol[c])
        else (p.tcnt[c] - 16, p.tpol[c]))
      else (p.tcnt[c], p.tpol[c]) := by
  unfold Psg.toneAdvance toneGuard crossed crossedPolarity scaledPeriod
  simp only [← Bool.decide_or, decide_eq_true_eq]
  split
  · split <;> simp [Psg.setTone]
  · rfl

/-- Another channel is untouched. -/
theorem Psg.toneAdvance_other (p : Psg) {c d : Fin 3} (h : d ≠ c) :
    (p.toneAdvance c).tcnt[d] = p.tcnt[d] ∧ (p.toneAdvance c).tpol[d] = p.tpol[d] := by
  have hv : c.val ≠ d.val := fun e => h (Fin.ext e.symm)
  rw [p.toneAdvance_frame c]
  simp [Vector.getElem_set_ne, hv]

/-- A channel's advance depends on that channel alone (R125). -/
theorem Psg.toneAdvance_congr {p q : Psg} (c : Fin 3) (hp : p.period[c] = q.period[c]) (ht : p.tcnt[c] = q.tcnt[c])
    (hb : p.tpol[c] = q.tpol[c]) :
    (p.toneAdvance c).tcnt[c] = (q.toneAdvance c).tcnt[c] ∧ (p.toneAdvance c).tpol[c] = (q.toneAdvance c).tpol[c] := by
  have e := p.toneAdvance_channel c
  rw [hp, ht, hb, ← q.toneAdvance_channel c] at e
  exact ⟨congrArg Prod.fst e, congrArg Prod.snd e⟩

theorem Psg.toneAdvance_period (p : Psg) (c : Fin 3) : (p.toneAdvance c).period = p.period := by
  rw [p.toneAdvance_frame c]; rfl

/-- Item 2 of STEP, channel by channel: the order of the three is unobservable (R125). -/
theorem Psg.tonesAdvance_channel (p : Psg) (c : Fin 3) :
    (p.tonesAdvance).tcnt[c] = (p.toneAdvance c).tcnt[c] ∧ (p.tonesAdvance).tpol[c] = (p.toneAdvance c).tpol[c] := by
  have h0 : ∀ d : Fin 3, d ≠ 0 → _ := fun d hd => p.toneAdvance_other (c := 0) (d := d) hd
  have h1 : ∀ d : Fin 3, d ≠ 1 → _ := fun d hd => (p.toneAdvance 0).toneAdvance_other (c := 1) (d := d) hd
  have h2 : ∀ d : Fin 3, d ≠ 2 → _ :=
    fun d hd => ((p.toneAdvance 0).toneAdvance 1).toneAdvance_other (c := 2) (d := d) hd
  have e0 := p.toneAdvance_period 0
  have e1 := (p.toneAdvance 0).toneAdvance_period 1
  unfold Psg.tonesAdvance
  match c with
  | 0 =>
    have a := h2 0 (by decide)
    have b := h1 0 (by decide)
    exact ⟨a.1.trans b.1, a.2.trans b.2⟩
  | 1 =>
    have a := h2 1 (by decide)
    have b := h0 1 (by decide)
    have k := Psg.toneAdvance_congr (p := p.toneAdvance 0) (q := p) 1 (by rw [e0]) b.1 b.2
    exact ⟨a.1.trans k.1, a.2.trans k.2⟩
  | 2 =>
    have b := h1 2 (by decide)
    have a := h0 2 (by decide)
    exact Psg.toneAdvance_congr (p := (p.toneAdvance 0).toneAdvance 1) (q := p) 2 (by rw [e1, e0])
      (b.1.trans a.1) (b.2.trans a.2)

/-- The tone generators write the counters and polarities and nothing else. -/
theorem Psg.tonesAdvance_frame (p : Psg) :
    p.tonesAdvance = { p with tcnt := (p.tonesAdvance).tcnt, tpol := (p.tonesAdvance).tpol } := by
  unfold Psg.tonesAdvance
  rw [((p.toneAdvance 0).toneAdvance 1).toneAdvance_frame 2, (p.toneAdvance 0).toneAdvance_frame 1,
    p.toneAdvance_frame 0]
  rfl

/-! ## The noise generator -/

/-- The noise generator writes ncnt, nff, lfsr and npol and nothing else (R145). -/
theorem Psg.noiseAdvance_frame (c : Config) (p : Psg) :
    p.noiseAdvance c = { p with
      ncnt := (p.noiseAdvance c).ncnt, nff := (p.noiseAdvance c).nff
      lfsr := (p.noiseAdvance c).lfsr, npol := (p.noiseAdvance c).npol } := by
  unfold Psg.noiseAdvance
  split
  · split <;> rfl
  · rfl

/-- What the noise generator does, case by case (R146, R148). -/
theorem Psg.noiseAdvance_eq (c : Config) (p : Psg) :
    p.noiseAdvance c =
      if p.ncnt - 16 ≤ 0 then
        (if p.nff = true then p.setNoiseCount (noiseReload c p) false
        else (p.setNoiseCount (noiseReload c p) true).setLfsr (lfsrShift (feedback c p.nmode p.lfsr) p.lfsr) p.lfsr[0])
      else p.setNoiseCount (p.ncnt - 16) p.nff := by
  simp only [Psg.noiseAdvance, crossed, decide_eq_true_eq]
  rfl

/-- Bits 14 to 0 of the shifted LFSR are bits 15 to 1 of the old. -/
theorem lfsrShift_low (fb : Bool) (l : BitVec 16) {j : Nat} (h : j < 15) :
    (lfsrShift fb l).getLsbD j = l.getLsbD (j + 1) := by
  have e := BitVec.getLsbD_append (x := BitVec.ofBool fb) (y := l.extractLsb' 1 15) (i := j)
  refine Eq.trans e ?_
  simp [h, Nat.add_comm]

/-- Bit 15 of the shifted LFSR is the feedback. -/
theorem lfsrShift_top (fb : Bool) (l : BitVec 16) : (lfsrShift fb l).getLsbD 15 = fb := by
  have e := BitVec.getLsbD_append (x := BitVec.ofBool fb) (y := l.extractLsb' 1 15) (i := 15)
  refine Eq.trans e ?_
  simp

/-- With the taps 0x0009 the white feedback is the exclusive or of bits 0 and 3 (R149). -/
theorem parity_taps (l : BitVec 16) : parity (l &&& 0x0009#16) = (l[0] ^^ l[3]) := by
  simp [parity, List.range, List.range.loop, BitVec.getLsbD_and]

/-- Items 2 and 3 of STEP write the counters, the polarities, the flip-flop and the LFSR, and nothing else (R125,
R135, R145). -/
theorem Psg.generators_frame (c : Config) (p : Psg) :
    p.generators c = { p with
      tcnt := (p.tonesAdvance).tcnt, tpol := (p.tonesAdvance).tpol
      ncnt := (p.generators c).ncnt, nff := (p.generators c).nff
      lfsr := (p.generators c).lfsr, npol := (p.generators c).npol } := by
  conv_lhs => rw [Psg.generators, Psg.noiseAdvance_frame, Psg.tonesAdvance_frame]
  simp only [Psg.generators]
  rw [← Psg.tonesAdvance_frame]

@[simp] theorem Psg.generators_period (c : Config) (p : Psg) : (p.generators c).period = p.period := by
  rw [p.generators_frame]
@[simp] theorem Psg.generators_vol (c : Config) (p : Psg) : (p.generators c).vol = p.vol := by
  rw [p.generators_frame]
@[simp] theorem Psg.generators_nrate (c : Config) (p : Psg) : (p.generators c).nrate = p.nrate := by
  rw [p.generators_frame]
@[simp] theorem Psg.generators_nmode (c : Config) (p : Psg) : (p.generators c).nmode = p.nmode := by
  rw [p.generators_frame]
@[simp] theorem Psg.generators_latchCh (c : Config) (p : Psg) : (p.generators c).latchCh = p.latchCh := by
  rw [p.generators_frame]
@[simp] theorem Psg.generators_latchType (c : Config) (p : Psg) : (p.generators c).latchType = p.latchType := by
  rw [p.generators_frame]
@[simp] theorem Psg.generators_q (c : Config) (p : Psg) : (p.generators c).q = p.q := by
  rw [p.generators_frame]
@[simp] theorem Psg.generators_credit (c : Config) (p : Psg) : (p.generators c).credit = p.credit := by
  rw [p.generators_frame]
@[simp] theorem Psg.generators_cbAcc (c : Config) (p : Psg) : (p.generators c).cbAcc = p.cbAcc := by
  rw [p.generators_frame]
@[simp] theorem Psg.generators_wrDropped (c : Config) (p : Psg) : (p.generators c).wrDropped = p.wrDropped := by
  rw [p.generators_frame]
@[simp] theorem Psg.generators_syncPending (c : Config) (p : Psg) : (p.generators c).syncPending = p.syncPending := by
  rw [p.generators_frame]
@[simp] theorem Psg.generators_worker (c : Config) (p : Psg) : (p.generators c).worker = p.worker := by
  rw [p.generators_frame]

/-! ## Items 2 to 6 of STEP -/

/-- Items 2 to 6 of STEP (R122), field by field where the generators are not concerned. -/
theorem State.afterCommand_eq (s : State) (h : s.cfg.callbackPeriod ≠ 0) :
    s.afterCommand = { s with
      psg := { s.psg.generators s.cfg with
        cbAcc := (s.psg.cbAcc + 16) % s.cfg.callbackPeriod, credit := s.psg.credit - 16 }
      out := { s.out with
        samples := s.out.samples ++
          List.replicate ((s.psg.cbAcc + 16) / s.cfg.callbackPeriod) ((s.psg.generators s.cfg).samples s.cfg) } } := by
  have e1 : (s.psg.generators s.cfg).cbAcc = s.psg.cbAcc := by
    rw [Psg.generators, Psg.noiseAdvance_frame, Psg.tonesAdvance_frame]
  have e2 : (s.psg.generators s.cfg).credit = s.psg.credit := by
    rw [Psg.generators, Psg.noiseAdvance_frame, Psg.tonesAdvance_frame]
  unfold State.afterCommand
  simp only [e1, strobeDivider_eq _ _ _ h, Psg.setCbAcc, Psg.takeCredit, Outputs.emitSamples, e2]

@[simp] theorem State.afterCommand_period (s : State) : s.afterCommand.psg.period = s.psg.period := by
  simp [State.afterCommand]
@[simp] theorem State.afterCommand_vol (s : State) : s.afterCommand.psg.vol = s.psg.vol := by
  simp [State.afterCommand]
@[simp] theorem State.afterCommand_nrate (s : State) : s.afterCommand.psg.nrate = s.psg.nrate := by
  simp [State.afterCommand]
@[simp] theorem State.afterCommand_nmode (s : State) : s.afterCommand.psg.nmode = s.psg.nmode := by
  simp [State.afterCommand]
@[simp] theorem State.afterCommand_latchCh (s : State) : s.afterCommand.psg.latchCh = s.psg.latchCh := by
  simp [State.afterCommand]
@[simp] theorem State.afterCommand_latchType (s : State) : s.afterCommand.psg.latchType = s.psg.latchType := by
  simp [State.afterCommand]
@[simp] theorem State.afterCommand_q (s : State) : s.afterCommand.psg.q = s.psg.q := by
  simp [State.afterCommand]
@[simp] theorem State.afterCommand_wrDropped (s : State) : s.afterCommand.psg.wrDropped = s.psg.wrDropped := by
  simp [State.afterCommand]
@[simp] theorem State.afterCommand_syncPending (s : State) : s.afterCommand.psg.syncPending = s.psg.syncPending := by
  simp [State.afterCommand]
@[simp] theorem State.afterCommand_worker (s : State) : s.afterCommand.psg.worker = s.psg.worker := by
  simp [State.afterCommand]
@[simp] theorem State.afterCommand_credit (s : State) : s.afterCommand.psg.credit = s.psg.credit - 16 := by
  simp [State.afterCommand, Psg.takeCredit]
@[simp] theorem State.afterCommand_cfg (s : State) : s.afterCommand.cfg = s.cfg := by
  cases s; rfl
@[simp] theorem State.afterCommand_video (s : State) : s.afterCommand.video = s.video := by
  cases s; rfl
@[simp] theorem State.afterCommand_env (s : State) : s.afterCommand.env = s.env := by
  cases s; rfl
@[simp] theorem State.afterCommand_resetDone (s : State) : s.afterCommand.resetDone = s.resetDone := by
  cases s; rfl
@[simp] theorem State.afterCommand_transfers (s : State) : s.afterCommand.out.transfers = s.out.transfers := by
  cases s; rfl

end Sys2Proof.Machine
end

