-- ==== Sys2Proof/Laws/Exec.lean ====
section
/-! SUPPORT. What an event can do when it answers a next state: one inversion lemma per event whose meaning has a
condition, and what one step can do. -/

namespace Sys2Proof.Machine

/-- The instruction a byte decodes to executes as the command it is (R124). -/
theorem exec_decodeByte (b : Byte) (s : State) :
    exec (decodeByte b) s = .next { s with psg := s.psg.runCommand s.cfg (decodeCommand b) } := by
  rw [decodeByte]
  cases decodeCommand b with
  | ltone c n => match c with | 0 => rfl | 1 => rfl | 2 => rfl
  | lvol c v => match c with | 0 => rfl | 1 => rfl | 2 => rfl | 3 => rfl
  | lnoise m r => rfl
  | data d => rfl

/-- STEP where it is enabled and the configuration has a callback period. -/
theorem exec_step_enabled {s : State} (hw : s.psg.worker = .draining) (hc : 16 ≤ s.psg.credit)
    (hp : s.cfg.callbackPeriod ≠ 0) :
    exec .step s = .next (State.afterCommand { s with psg := s.psg.dequeue s.cfg }) := by
  show execStep s = _
  simp [execStep, Psg.stepEnabled, hw, hc, hp]

/-- STEP as one record equation: what each part of the state is after it (R122 to R126, R166). -/
theorem exec_step_eq {s : State} (hw : s.psg.worker = .draining) (hc : 16 ≤ s.psg.credit)
    (hp : s.cfg.callbackPeriod ≠ 0) :
    exec .step s = .next { s with
      psg := { (s.psg.dequeue s.cfg).generators s.cfg with
        cbAcc := (s.psg.cbAcc + 16) % s.cfg.callbackPeriod, credit := s.psg.credit - 16 }
      out := { s.out with
        samples := s.out.samples ++ List.replicate ((s.psg.cbAcc + 16) / s.cfg.callbackPeriod)
          (((s.psg.dequeue s.cfg).generators s.cfg).samples s.cfg) } } := by
  rw [exec_step_enabled hw hc hp]
  refine congrArg _ ((State.afterCommand_eq { s with psg := s.psg.dequeue s.cfg } hp).trans ?_)
  simp

/-- STEP answers a next state only where it is enabled. -/
theorem exec_step_next {s t : State} (h : exec .step s = .next t) :
    s.psg.worker = .draining ∧ 16 ≤ s.psg.credit ∧ s.cfg.callbackPeriod ≠ 0 ∧
      t = State.afterCommand { s with psg := s.psg.dequeue s.cfg } := by
  change execStep s = _ at h
  unfold execStep at h
  split at h
  · rename_i he
    split at h
    · cases h
    · rename_i hp
      simp only [Psg.stepEnabled, Bool.and_eq_true, decide_eq_true_eq] at he
      cases h
      exact ⟨he.1, he.2, hp, rfl⟩
  · cases h

/-- WAKE answers a next state only where it is enabled. -/
theorem exec_wake_next {s t : State} (h : exec .wake s = .next t) :
    s.psg.worker = .idle ∧ s.psg.syncPending = true ∧
      t = { s with psg := (s.psg.setSync false).setWorker .draining } := by
  change execWake s = _ at h
  unfold execWake at h
  split at h
  · rename_i he
    simp only [Psg.wakeEnabled, Bool.and_eq_true, decide_eq_true_eq] at he
    cases h
    exact ⟨he.1, he.2, rfl⟩
  · cases h

/-- SLEEP answers a next state only where it is enabled. -/
theorem exec_sleep_next {s t : State} (h : exec .sleep s = .next t) :
    s.psg.worker = .draining ∧ s.psg.credit < 16 ∧ t = { s with psg := s.psg.setWorker .idle } := by
  change execSleep s = _ at h
  unfold execSleep at h
  split at h
  · rename_i he
    simp only [Psg.sleepEnabled, Bool.and_eq_true, decide_eq_true_eq] at he
    cases h
    exact ⟨he.1, he.2, rfl⟩
  · cases h

/-- TXSTART answers a next state only where it is enabled. -/
theorem exec_txstart_next {s t : State} (h : exec .txstart s = .next t) :
    ∃ b, s.video.txActive = false ∧ s.video.slot = some b ∧ t = { s with video := s.video.takeSlot b } := by
  change execTxstart s = _ at h
  unfold execTxstart at h
  split at h
  · rename_i b ha hs
    cases h
    exact ⟨b, ha, hs, rfl⟩
  · cases h
  · cases h

/-- TXPART answers a next state only where it is enabled. -/
theorem exec_txpart_next {s t : State} (h : exec .txpart s = .next t) :
    s.video.txActive = true ∧ s.video.txPart < s.cfg.partCount ∧
      t = { s with
        video := s.video.nextPart
        out := s.out.emitTx ⟨s.video.partBytes s.cfg s.video.txBuf s.video.txPart, s.cfg.partSize + 1⟩ } := by
  change execTxpart s = _ at h
  unfold execTxpart at h
  split at h
  · rename_i he
    simp only [Video.partEnabled, Bool.and_eq_true, decide_eq_true_eq] at he
    cases h
    exact ⟨he.1, he.2, rfl⟩
  · cases h

/-- TXEND answers a next state only where it is enabled. -/
theorem exec_txend_next {s t : State} (h : exec .txend s = .next t) :
    s.video.txActive = true ∧ s.video.txPart = s.cfg.partCount ∧ t = { s with video := s.video.endTx } := by
  change execTxend s = _ at h
  unfold execTxend at h
  split at h
  · rename_i he
    simp only [Video.endEnabled, Bool.and_eq_true, decide_eq_true_eq] at he
    cases h
    exact ⟨he.1, he.2, rfl⟩
  · cases h

/-- PIXWR answers a next state only in range. -/
theorem exec_pixwr_next {s t : State} {i o : Nat} {v : Byte} (h : exec (.pixwr i o v) s = .next t) :
    i < s.cfg.nParts ∧ o < s.cfg.partSize ∧
      t = { s with video := s.video.memWrite s.cfg s.video.draw i (o + 1) v } := by
  change execPixwr i o v s = _ at h
  unfold execPixwr at h
  split at h
  · rename_i he
    cases h
    exact ⟨he.1, he.2, rfl⟩
  · cases h

/-- RESET answers a next state only the first time and with a legal configuration. -/
theorem exec_reset_next {s t : State} {c : Config} (h : exec (.reset c) s = .next t) :
    s.resetDone = false ∧ c.Legal ∧ t = { State.resetWith c with env := s.env } := by
  change execReset c s = _ at h
  unfold execReset at h
  split at h
  · cases h
  · rename_i hd
    split at h
    · rename_i hl
      cases h
      exact ⟨by simpa using hd, hl, rfl⟩
    · cases h

/-- A HOST event is one of the six a program line can stand for (R98, R99). -/
theorem hostEvents_mem {line e : Instr} {more : List Instr} (h : hostEvents line = e :: more) :
    (∃ b, e = .wr b) ∨ (∃ c, e = .adv c) ∨ e = .sync ∨ e = .tick ∨ (∃ i o v, e = .pixwr i o v) ∨
      (∃ c, e = .reset c ∧ line = .reset c ∧ more = []) := by
  cases line <;> simp only [hostEvents, List.cons.injEq, reduceCtorEq] at h
  case reset c => exact .inr (.inr (.inr (.inr (.inr ⟨c, h.1.symm, rfl, h.2.symm⟩))))
  all_goals
    obtain ⟨rfl, -⟩ := h
    simp

/-- What a step that answers a next state has done: the agent was blocked and only the schedule moved; or HOST's
program gave an event that exec ran; or a worker's event ran. -/
theorem step_next {s t : State} (h : step s = .next t) :
    t = s.takeTurn ∨
    (∃ line rest e more, s.agent = .host ∧ s.env.program = line :: rest ∧ hostEvents line = e :: more ∧
      s.admits e = true ∧ exec e (s.takeTurn.setProgram (more ++ rest)) = .next t) ∨
    (s.resetDone = true ∧ ∃ e ∈ [Instr.wake, .step, .sleep, .txstart, .txpart, .txend],
      exec e s.takeTurn = .next t) := by
  have hprog : s.takeTurn.env.program = s.env.program := by unfold State.takeTurn; split <;> rfl
  have hadm : ∀ e, s.takeTurn.admits e = s.admits e := by
    intro e; unfold State.takeTurn; split <;> cases e <;> rfl
  unfold step State.turn at h
  cases ha : s.agent with
  | host =>
    simp only [ha, State.hostTurn, hprog] at h
    cases hp : s.env.program with
    | nil =>
      simp only [hp] at h
      cases h
      exact .inl rfl
    | cons line rest =>
      simp only [hp] at h
      cases hl : hostEvents line with
      | nil => simp [hl] at h
      | cons e more =>
        simp only [hl, hadm] at h
        by_cases had : s.admits e = true
        · simp only [had, if_true] at h
          exact .inr (.inl ⟨line, rest, e, more, rfl, rfl, hl, had, h⟩)
        · simp [had] at h
  | psgw =>
    simp only [ha] at h
    by_cases hd : s.resetDone = true
    · simp only [hd, if_true, State.psgwTurn] at h
      split at h
      · rename_i i u hi
        refine .inr (.inr ⟨hd, i, ?_, ?_⟩) <;>
        (split at hi
         · cases hi; first | exact h | simp
         · split at hi
           · cases hi; first | exact h | simp
           · split at hi
             · cases hi; first | exact h | simp
             · cases hi)
      · rename_i u hu
        cases h
        (repeat' split at hu) <;> cases hu
        exact .inl rfl
      · cases h
    · simp only [Bool.not_eq_true] at hd
      simp only [hd, Bool.false_eq_true, if_false] at h
      cases h
      exact .inl rfl
  | vidw =>
    simp only [ha] at h
    by_cases hd : s.resetDone = true
    · simp only [hd, if_true, State.vidwTurn] at h
      split at h
      · rename_i i u hi
        refine .inr (.inr ⟨hd, i, ?_, ?_⟩) <;>
        (repeat' split at hi) <;> cases hi <;> first | exact h | simp
      · rename_i u hu
        cases h
        (repeat' split at hu) <;> cases hu <;> exact .inl rfl
      · cases h
    · simp only [Bool.not_eq_true] at hd
      simp only [hd, Bool.false_eq_true, if_false] at h
      cases h
      exact .inl rfl

/-- Taking a turn touches the environment's schedule alone. -/
theorem State.takeTurn_eq (s : State) : ∃ e : Env, s.takeTurn = { s with env := e } ∧ e.program = s.env.program := by
  unfold State.takeTurn
  split
  · exact ⟨_, rfl, rfl⟩
  · exact ⟨_, rfl, rfl⟩

/-- The agent a schedule names first has the turn. -/
theorem State.agent_cons {s : State} {a : Agent} {rest : List Agent} (h : s.env.schedule = a :: rest) : s.agent = a := by
  simp [State.agent, h]

/-- Taking the turn a schedule names leaves the rest of the schedule. -/
theorem State.takeTurn_cons {s : State} {a : Agent} {rest : List Agent} (h : s.env.schedule = a :: rest) :
    s.takeTurn = { s with env := { s.env with schedule := rest } } := by
  simp [State.takeTurn, h]

end Sys2Proof.Machine
end

