-- ==== Sys2Proof/Laws/Geometry.lean ====
section
/-! SUPPORT. The addresses of the part memories' cells (R41, R60, R71). -/

namespace Sys2Proof

/-- Inside a part the address determines the part and the real offset. -/
theorem Config.cellAddr_div_mod (c : Config) (b : Fin 2) (i : Nat) {r : Nat} (hr : r ≤ c.partSize) :
    c.cellAddr b i r / (c.partSize + 1) = b.val * c.nParts + i ∧ c.cellAddr b i r % (c.partSize + 1) = r := by
  unfold Config.cellAddr
  constructor
  · rw [Nat.mul_comm, Nat.mul_add_div (by omega), Nat.div_eq_of_lt (by omega), Nat.add_zero]
  · rw [Nat.mul_comm, Nat.mul_add_mod, Nat.mod_eq_of_lt (by omega)]

/-- A cell is its part's prefix exactly at real offset 0. -/
theorem Config.isPrefix_cellAddr (c : Config) (b : Fin 2) (i : Nat) {r : Nat} (hr : r ≤ c.partSize) :
    c.isPrefix (c.cellAddr b i r) = decide (r = 0) := by
  rw [Config.isPrefix, (c.cellAddr_div_mod b i hr).2]
  by_cases h : r = 0 <;> simp [h]

end Sys2Proof
end

