-- ==== Sys2Proof/Laws/Memory.lean ====
section
/-! SUPPORT. The part memories: a read after a write (R64), and that every memory operation keeps the canonical
form. -/

namespace Sys2Proof.Machine

theorem Memory.get?_put_same (m : Memory) (a : Nat) (v : Byte) : (m.put a v).get? a = some v := by
  induction m with
  | nil => simp [Memory.put, Memory.get?]
  | cons e m ih =>
    obtain ⟨k, w⟩ := e
    simp only [Memory.put]
    split
    · simp [Memory.get?]
    · split
      · simp [Memory.get?]
      · have : k ≠ a := fun h => by omega
        simpa [Memory.get?, this] using ih

theorem Memory.get?_put_ne (m : Memory) {a x : Nat} (v : Byte) (h : x ≠ a) : (m.put a v).get? x = m.get? x := by
  induction m with
  | nil => simp [Memory.put, Memory.get?, h.symm]
  | cons e m ih =>
    obtain ⟨k, w⟩ := e
    simp only [Memory.put]
    split
    · simp [Memory.get?, h.symm]
    · split
      · rename_i h1 h2
        subst h2
        simp [Memory.get?, h.symm]
      · simp only [Memory.get?]
        rw [ih]

theorem Memory.get?_erase_same (m : Memory) (a : Nat) : (m.erase a).get? a = none := by
  induction m with
  | nil => rfl
  | cons e m ih =>
    obtain ⟨k, w⟩ := e
    by_cases hk : k = a
    · simpa [Memory.erase, hk] using ih
    · simpa [Memory.erase, hk, Memory.get?] using ih

theorem Memory.get?_erase_ne (m : Memory) {a x : Nat} (h : x ≠ a) : (m.erase a).get? x = m.get? x := by
  induction m with
  | nil => rfl
  | cons e m ih =>
    obtain ⟨k, w⟩ := e
    by_cases hk : k = a
    · subst hk
      have e1 : Memory.erase ((k, w) :: m) k = Memory.erase m k := by simp [Memory.erase]
      rw [e1, ih, Memory.get?, if_neg h.symm]
    · have e1 : Memory.erase ((k, w) :: m) a = (k, w) :: Memory.erase m a := by simp [Memory.erase, hk]
      rw [e1, Memory.get?, Memory.get?, ih]

/-- A read at the address written gives the byte written. -/
theorem Memory.read_write_same (c : Config) (m : Memory) (a : Nat) (v : Byte) : (m.write c a v).read c a = v := by
  unfold Memory.write
  split
  · rename_i h
    simp [Memory.read, Memory.get?_erase_same, h]
  · simp [Memory.read, Memory.get?_put_same]

/-- A read at any other address is unchanged. -/
theorem Memory.read_write_ne (c : Config) (m : Memory) {a x : Nat} (v : Byte) (h : x ≠ a) :
    (m.write c a v).read c x = m.read c x := by
  unfold Memory.write
  split <;> simp [Memory.read, Memory.get?_erase_ne m h, Memory.get?_put_ne m v h]

theorem Memory.mem_put {m : Memory} {a : Nat} {v : Byte} {e : Host.Cell} (h : e ∈ m.put a v) : e = (a, v) ∨ e ∈ m := by
  induction m with
  | nil => simpa [Memory.put] using h
  | cons f m ih =>
    obtain ⟨k, w⟩ := f
    simp only [Memory.put] at h
    split at h
    · simpa using h
    · split at h
      · rcases List.mem_cons.1 h with h | h
        · exact .inl h
        · exact .inr (List.mem_cons_of_mem _ h)
      · rcases List.mem_cons.1 h with h | h
        · exact .inr (h ▸ List.mem_cons_self)
        · rcases ih h with h | h
          · exact .inl h
          · exact .inr (List.mem_cons_of_mem _ h)

theorem Memory.put_rises {m : Memory} {a : Nat} {v : Byte} (h : m.Pairwise (fun x y => x.1 < y.1)) :
    (m.put a v).Pairwise (fun x y => x.1 < y.1) := by
  induction m with
  | nil => simp [Memory.put]
  | cons f m ih =>
    obtain ⟨k, w⟩ := f
    have hm := List.pairwise_cons.1 h
    simp only [Memory.put]
    split
    · rename_i hak
      refine List.pairwise_cons.2 ⟨fun e he => ?_, h⟩
      rcases List.mem_cons.1 he with rfl | he
      · exact hak
      · exact Nat.lt_trans hak (hm.1 e he)
    · split
      · rename_i _ hak
        subst hak
        exact List.pairwise_cons.2 ⟨hm.1, hm.2⟩
      · refine List.pairwise_cons.2 ⟨fun e he => ?_, ih hm.2⟩
        rcases Memory.mem_put he with rfl | he
        · simp only
          omega
        · exact hm.1 e he

/-- Putting a byte that is not what the unlisted cell reads keeps the canonical form. -/
theorem Memory.wf_put {c : Config} {m : Memory} {a : Nat} {v : Byte} (h : m.wf c) (ha : a < c.cellCount)
    (hv : c.unlisted a ≠ some v) : (m.put a v).wf c := by
  refine ⟨Memory.put_rises h.1, fun e he => ?_⟩
  rcases Memory.mem_put he with rfl | he
  · exact ⟨ha, hv⟩
  · exact h.2 e he

/-- Erasing an address keeps the canonical form. -/
theorem Memory.wf_erase {c : Config} {m : Memory} (a : Nat) (h : m.wf c) : (m.erase a).wf c :=
  ⟨h.1.filter _, fun e he => h.2 e (List.mem_filter.1 he).1⟩

/-- A write inside the space V keeps the canonical form. -/
theorem Memory.wf_write {c : Config} {m : Memory} {a : Nat} (v : Byte) (h : m.wf c) (ha : a < c.cellCount) :
    (m.write c a v).wf c := by
  unfold Memory.write
  split
  · exact Memory.wf_erase a h
  · rename_i hv
    exact Memory.wf_put h ha hv

/-- The memory after RESET is in canonical form. -/
theorem Memory.wf_initial (c : Config) : Memory.wf c Video.initial.mem := by simp [Memory.wf, Video.initial]

end Sys2Proof.Machine
end

