-- ==== Sys2Proof/Laws/Operands.lean ====
section
/-! SUPPORT. What each operand form and flag computation leaves in its bits (R94, R138, R147, R160 to R163). -/

namespace Sys2Proof.Machine

/-- LATCH to a period: the low nibble is new, bits 9 to 4 stay (R177). -/
theorem periodLatch_bits (p : BitVec 10) (n : Nibble) :
    (periodLatch p n).extractLsb' 0 4 = n ∧ (periodLatch p n).extractLsb' 4 6 = p.extractLsb' 4 6 ∧
    (periodLatch p n).extractLsb' 8 2 = p.extractLsb' 8 2 := by
  have e : p.extractLsb' 8 2 = (p.extractLsb' 4 6).extractLsb' 4 2 := by
    ext i hi
    simp only [BitVec.getElem_extractLsb', BitVec.getLsbD_extractLsb', show 4 + i < 6 by omega, decide_true, Bool.true_and,
      ← Nat.add_assoc]
  unfold periodLatch
  rw [e]
  generalize p.extractLsb' 4 6 = q
  revert q n
  decide

/-- DATA to a period with width 6: bits 9 to 4 are new, the low nibble stays (R184). -/
theorem periodData6_bits (p : BitVec 10) (d : BitVec 6) :
    (periodData6 p d).extractLsb' 0 4 = p.extractLsb' 0 4 ∧ (periodData6 p d).extractLsb' 4 6 = d ∧
    (periodData6 p d).extractLsb' 4 4 = d.extractLsb' 0 4 ∧ (periodData6 p d).extractLsb' 8 2 = d.extractLsb' 4 2 := by
  unfold periodData6
  generalize p.extractLsb' 0 4 = q
  revert q d
  decide

/-- DATA to a period with width 4: bits 7 to 4 are new, the rest stays (R184). -/
theorem periodData4_bits (p : BitVec 10) (d : BitVec 6) :
    (periodData4 p d).extractLsb' 0 4 = p.extractLsb' 0 4 ∧ (periodData4 p d).extractLsb' 4 4 = d.extractLsb' 0 4 ∧
    (periodData4 p d).extractLsb' 8 2 = p.extractLsb' 8 2 := by
  unfold periodData4
  generalize p.extractLsb' 0 4 = q
  generalize p.extractLsb' 8 2 = r
  generalize d.extractLsb' 0 4 = e
  revert q r e
  decide

/-- A scaled period lies in 0..16368 (R138). -/
theorem scaledPeriod_bounds (p : BitVec 10) : 0 ≤ scaledPeriod p ∧ scaledPeriod p ≤ 16368 := by
  have := p.isLt
  unfold scaledPeriod
  omega

/-- A gated sample as a number (R161, R162): 15 - vol, or 0. -/
theorem gatedSample_toNat (enable pol : Bool) (v : Nibble) :
    (gatedSample enable pol v).toNat = if enable && pol then 15 - v.toNat else 0 := by
  revert enable pol v
  decide

/-- A silent volume gives the sample 0 (R160). -/
theorem gatedSample_silent (enable pol : Bool) : gatedSample enable pol 0xF = 0 := by
  revert enable pol
  decide

end Sys2Proof.Machine
end

