-- ==== Sys2Proof/Laws/Ops.lean ====
section
/-! SUPPORT. What WR, TICK and a part's transfer do to the state, each said once (R110, R111, R202, R203, R205). -/

namespace Sys2Proof.Machine

/-- WR with room in the queue (R110). -/
theorem Psg.write_room (p : Psg) (b : Byte) (h : p.q.length < 1024) : p.write b = p.qPush b := by
  simp [Psg.write, Psg.qLen, queueCap, h]

/-- WR with a full queue (R111). -/
theorem Psg.write_full (p : Psg) (b : Byte) (h : p.q.length = 1024) : p.write b = p.dropWrite := by
  simp [Psg.write, Psg.qLen, queueCap, h]

/-- WR touches the queue and the drop counter alone, and the counter never falls. -/
theorem Psg.write_frame (p : Psg) (b : Byte) :
    p.write b = { p with q := (p.write b).q, wrDropped := (p.write b).wrDropped } ∧
    p.wrDropped ≤ (p.write b).wrDropped := by
  by_cases h : p.q.length < 1024
  · rw [p.write_room b h]
    exact ⟨rfl, Nat.le_refl _⟩
  · have e : p.write b = p.dropWrite := by simp [Psg.write, Psg.qLen, queueCap, h]
    rw [e]
    exact ⟨rfl, Nat.le_succ _⟩

/-- TICK with no frame in flight (R202). -/
theorem Video.tick_accepted (v : Video) (hs : v.slot = none) (ht : v.txActive = false) : v.tick = v.handOver := by
  simp [Video.tick, Video.inFlight, hs, ht]

/-- TICK with a frame in flight (R203). -/
theorem Video.tick_dropped (v : Video) (h : v.slot.isSome = true ∨ v.txActive = true) : v.tick = v.dropFrame := by
  have e : v.inFlight = true := by simpa [Video.inFlight] using h
  simp [Video.tick, e]

/-- A TICK is one of its two forms. -/
theorem Video.tick_cases (v : Video) :
    (v.slot = none ∧ v.txActive = false ∧ v.tick = v.handOver) ∨
    ((v.slot.isSome = true ∨ v.txActive = true) ∧ v.tick = v.dropFrame) := by
  by_cases h : v.slot.isSome = true ∨ v.txActive = true
  · exact .inr ⟨h, v.tick_dropped h⟩
  · simp only [not_or, Bool.not_eq_true, Option.isSome_eq_false_iff, Option.isNone_iff_eq_none] at h
    exact .inl ⟨h.1, h.2, v.tick_accepted h.1 h.2⟩

/-- A transfer has part_size + 1 bytes. -/
theorem Video.partBytes_length (c : Config) (v : Video) (b : Fin 2) (i : Nat) :
    (v.partBytes c b i).length = c.partSize + 1 := by
  simp [Video.partBytes]

/-- Byte r of a transfer is the cell at real offset r. -/
theorem Video.partBytes_getElem (c : Config) (v : Video) (b : Fin 2) (i : Nat) {r : Nat} (h : r ≤ c.partSize) :
    (v.partBytes c b i)[r]? = some (v.memRead c b i r) := by
  simp [Video.partBytes, List.getElem?_map, List.getElem?_range (show r < c.partSize + 1 by omega)]

end Sys2Proof.Machine
end

