-- ==== Sys2Proof/Laws/PerInstr.lean ====
section
/-! SUPPORT. Per instruction: its byte stands in its row of the command table (R95, R96), and a row without a command
byte is not read from the command queue (R98). -/

namespace Sys2Proof.Laws.TableRow

/-- The mask and the match of the row, as opcode_table.json lists them; none for a row without a command byte. -/
def maskMatch : Instr → Option (Byte × Byte)
  | .ltone0 _ => some (0xF0, 0x80)
  | .ltone1 _ => some (0xF0, 0xA0)
  | .ltone2 _ => some (0xF0, 0xC0)
  | .lnoise _ _ => some (0xF0, 0xE0)
  | .lvol0 _ => some (0xF0, 0x90)
  | .lvol1 _ => some (0xF0, 0xB0)
  | .lvol2 _ => some (0xF0, 0xD0)
  | .lvol3 _ => some (0xF0, 0xF0)
  | .data _ => some (0x80, 0x00)
  | .dataTone _ => some (0x80, 0x00)
  | .dataVol _ => some (0x80, 0x00)
  | .dataNoise _ _ => some (0x80, 0x00)
  | .wr _ | .adv _ | .sync | .tick | .pixwr _ _ _ => none
  | .wake | .step | .sleep | .txstart | .txpart | .txend => none
  | .reset _ | .sample _ _ _ _ | .tx _ _ => none
  | .tone _ _ | .vol _ _ | .silence | .wrs _ | .endframe => none

/-- One byte under the row's mask is the row's match; without a row, the instruction is none of the command queue. -/
def Statement (i : Instr) : Prop :=
  match maskMatch i with
  | some (mask, value) => ∃ b, encode i = [b] ∧ b &&& mask = value
  | none => i.port ≠ some .command

theorem ltone0 (n : Nibble) : Statement (.ltone0 n) := ⟨_, rfl, by revert n; decide⟩
theorem ltone1 (n : Nibble) : Statement (.ltone1 n) := ⟨_, rfl, by revert n; decide⟩
theorem ltone2 (n : Nibble) : Statement (.ltone2 n) := ⟨_, rfl, by revert n; decide⟩
theorem lnoise (m : BitVec 1) (r : BitVec 2) : Statement (.lnoise m r) := ⟨_, rfl, by revert m r; decide⟩
theorem lvol0 (v : Nibble) : Statement (.lvol0 v) := ⟨_, rfl, by revert v; decide⟩
theorem lvol1 (v : Nibble) : Statement (.lvol1 v) := ⟨_, rfl, by revert v; decide⟩
theorem lvol2 (v : Nibble) : Statement (.lvol2 v) := ⟨_, rfl, by revert v; decide⟩
theorem lvol3 (v : Nibble) : Statement (.lvol3 v) := ⟨_, rfl, by revert v; decide⟩
theorem data (d : BitVec 6) : Statement (.data d) := ⟨_, rfl, by revert d; decide⟩
theorem dataTone (d : BitVec 6) : Statement (.dataTone d) := ⟨_, rfl, by revert d; decide⟩
theorem dataVol (v : Nibble) : Statement (.dataVol v) := ⟨_, rfl, by revert v; decide⟩
theorem dataNoise (m : BitVec 1) (r : BitVec 2) : Statement (.dataNoise m r) := ⟨_, rfl, by revert m r; decide⟩
theorem wr (b : Byte) : Statement (.wr b) := fun h => nomatch h
theorem adv (c : Byte) : Statement (.adv c) := fun h => nomatch h
theorem sync : Statement .sync := fun h => nomatch h
theorem tick : Statement .tick := fun h => nomatch h
theorem pixwr (i o : Nat) (v : Byte) : Statement (.pixwr i o v) := fun h => nomatch h
theorem wake : Statement .wake := fun h => nomatch h
theorem step : Statement .step := fun h => nomatch h
theorem sleep : Statement .sleep := fun h => nomatch h
theorem txstart : Statement .txstart := fun h => nomatch h
theorem txpart : Statement .txpart := fun h => nomatch h
theorem txend : Statement .txend := fun h => nomatch h
theorem reset (c : Config) : Statement (.reset c) := fun h => nomatch h
theorem sample (s0 s1 s2 s3 : Byte) : Statement (.sample s0 s1 s2 s3) := fun h => nomatch h
theorem tx (bytes : List Byte) (len : Nat) : Statement (.tx bytes len) := fun h => nomatch h
theorem tone (c : Fin 3) (p : BitVec 10) : Statement (.tone c p) := fun h => nomatch h
theorem vol (c : Fin 4) (v : Nibble) : Statement (.vol c v) := fun h => nomatch h
theorem silence : Statement .silence := fun h => nomatch h
theorem wrs (b : Byte) : Statement (.wrs b) := fun h => nomatch h
theorem endframe : Statement .endframe := fun h => nomatch h

/-- No two rows of the first command table overlap: under the common bits of their masks their matches differ. -/
theorem rows_disjoint :
    ([(0xF0, 0x80), (0xF0, 0xA0), (0xF0, 0xC0), (0xF0, 0xE0), (0xF0, 0x90), (0xF0, 0xB0), (0xF0, 0xD0), (0xF0, 0xF0),
      (0x80, 0x00)] : List (Byte × Byte)).Pairwise (fun x y => x.2 &&& (x.1 &&& y.1) ≠ y.2 &&& (x.1 &&& y.1)) := by
  decide

end Sys2Proof.Laws.TableRow
end

