-- ==== Sys2Proof/Laws/Runs.lean ====
section
/-! SUPPORT. Sequences of events (R73) and runs of the machine, one event at a time. -/

namespace Sys2Proof.Machine

theorem runEvents_cons {i : Instr} {is : List Instr} {s t : State} (h : exec i s = .next t) :
    runEvents (i :: is) s = runEvents is t := by
  simp [runEvents, h]

/-- A sequence that answers a next state splits at its first event. -/
theorem runEvents_cons_next {i : Instr} {is : List Instr} {s t : State} (h : runEvents (i :: is) s = .next t) :
    ∃ u, exec i s = .next u ∧ runEvents is u = .next t := by
  simp only [runEvents] at h
  split at h
  · rename_i u hu
    exact ⟨u, hu, h⟩
  · cases h
  · cases h

theorem runEvents_append {is js : List Instr} {s t : State} (h : runEvents is s = .next t) :
    runEvents (is ++ js) s = runEvents js t := by
  induction is generalizing s with
  | nil => cases h; rfl
  | cons i is ih =>
    obtain ⟨u, hu, hr⟩ := runEvents_cons_next h
    rw [List.cons_append, runEvents_cons hu, ih hr]

/-- A run of k + 1 steps is one step and a run of k. -/
theorem run_succ {s t : State} (k : Nat) (h : step s = .next t) :
    Sys2Proof.core.run (k + 1) s = Sys2Proof.core.run k t := by
  have e : Sys2Proof.core.step s = .next t := h
  simp only [Host.Core.run, e]

end Sys2Proof.Machine
end

