-- ==== Sys2Proof/Tests/Slice0.lean ====
section
/-! SUPPORT. The model's own tests: ill-formed instructions, words written out from the spec's encodings, rows of the
vectors of 95_test_vectors.md, and one witness for each statement that has hypotheses. -/

namespace Sys2Proof.Tests

open Sys2Proof.Machine

/-! ## Helpers -/

/-- The state an outcome answers, where it answers one. -/
def after (o : Host.Outcome State Fault Refusal) : Option State :=
  match o with
  | .next s => some s
  | .fault _ => none
  | .refused _ => none

/-- The refusal an outcome answers, where it answers one. -/
def why (o : Host.Outcome State Fault Refusal) : Option Refusal :=
  match o with
  | .next _ => none
  | .fault _ => none
  | .refused r => some r

/-- The reset state with the PSG state `p`. -/
def onPsg (p : Psg) : State := { State.reset with psg := p }

/-- The reset state with the video state `v`. -/
def onVideo (v : Video) : State := { State.reset with video := v }

/-- The PSG state after reset. -/
def psg0 : Psg := Psg.initial standardConfig

/-- The command bytes `bs` executed one after another. -/
def commands (bs : List Byte) (s : State) : Option State :=
  bs.foldl (fun o b => o.bind (fun s => after (exec (decodeByte b) s))) (some s)

/-- A draining machine with the queue `q` and the credit `k`. -/
def drainingWith (q : List Byte) (k : Nat) : State := onPsg { psg0 with worker := .draining, credit := k, q := q }

/-- PSGW draining with the credit of one step. -/
def draining : State := drainingWith [] 16

/-- The same machine on PSGW's turn. -/
def drainingTurn : State := { draining with env := ⟨[], [.psgw], 0⟩ }

/-- A frame in transmission from buffer 0 with `n` parts sent. -/
def sending (n : Nat) : State := onVideo { Video.initial with draw := 1, txActive := true, txPart := n }

/-! ## Well-formedness: an ill-formed term for each check (R14, R98) -/

theorem test_wf_accepts : (Instr.reset standardConfig).wellFormed = true ∧ (Instr.tx [1, 2] 2).wellFormed = true := by
  decide
theorem test_wf_refuses_callback_period :
    (Instr.reset { standardConfig with callbackPeriod := 0 }).wellFormed = false := by decide
theorem test_wf_refuses_noise_mult : (Instr.reset { standardConfig with noiseMult := 2 }).wellFormed = false := by decide
theorem test_wf_refuses_tone_data_width :
    (Instr.reset { standardConfig with toneDataWidth := 5 }).wellFormed = false := by decide
theorem test_wf_refuses_lfsr_taps : (Instr.reset { standardConfig with lfsrTaps := 0x0003 }).wellFormed = false := by
  decide
theorem test_wf_refuses_width : (Instr.reset { standardConfig with width := 0 }).wellFormed = false := by decide
theorem test_wf_refuses_height : (Instr.reset { standardConfig with height := 0 }).wellFormed = false := by decide
theorem test_wf_refuses_no_parts : (Instr.reset { standardConfig with partCount := 0 }).wellFormed = false := by decide
/-- V-G-4. -/
theorem test_wf_refuses_uneven_parts : (Instr.reset { standardConfig with partCount := 3 }).wellFormed = false := by
  decide
theorem test_wf_refuses_tx_length : (Instr.tx [1, 2] 3).wellFormed = false := by decide

/-! ## Decoding: words written out from R91 to R97 (V-ENC-1 to V-ENC-16) -/

theorem test_decode_ltone0 : decodeTableWord 8 0b10001000 = some (.ltone0 8) := by decide
theorem test_decode_ltone1 : decodeTableWord 8 0b10100101 = some (.ltone1 5) := by decide
theorem test_decode_ltone2 : decodeTableWord 8 0b11001110 = some (.ltone2 14) := by decide
theorem test_decode_lnoise :
    decodeTableWord 8 0b11100100 = some (.lnoise 1 0) ∧ decodeTableWord 8 0b11101011 = some (.lnoise 0 3) := by decide
theorem test_decode_lvol0 : decodeTableWord 8 0b10010000 = some (.lvol0 0) := by decide
theorem test_decode_lvol1 : decodeTableWord 8 0b10110111 = some (.lvol1 7) := by decide
theorem test_decode_lvol2 : decodeTableWord 8 0b11011111 = some (.lvol2 15) := by decide
theorem test_decode_lvol3 :
    decodeTableWord 8 0b11110000 = some (.lvol3 0) ∧ decodeTableWord 8 0b11111111 = some (.lvol3 15) := by decide
theorem test_decode_data :
    decodeTableWord 8 0b00001010 = some (.data 0x0A) ∧ decodeTableWord 8 0b01111111 = some (.data 0x3F) := by decide
theorem test_decode_dataTone : decodeAt 2 .tone 0b00111111 = .dataTone 0x3F := by decide
theorem test_decode_dataVol : decodeAt 3 .volume 0b00101100 = .dataVol 12 := by decide
theorem test_decode_dataNoise : decodeAt 3 .tone 0b01000101 = .dataNoise 1 1 := by decide
theorem test_decode_wr : decodeOn .wr [0x88, 0x00] = .ok (.wr 0x88, [0x00]) := rfl
theorem test_decode_adv : decodeOn .adv [0xA0] = .ok (.adv 160, []) := rfl
theorem test_decode_sync : decodeOn .sync [0x01] = .ok (.sync, [0x01]) := rfl
theorem test_decode_tick : decodeOn .tick [] = .ok (.tick, []) := rfl
theorem test_decode_sample : decodeTableWord 32 0x0F000A06 = some (.sample 15 0 10 6) := by decide
theorem test_decode_too_few_bytes : decodeOn .sample [1, 2, 3] = .error .tooFewBytes := rfl
theorem test_decode_no_such_width : decodeTableWord 16 0x8080 = none := by decide
/-- The bytes HOST writes for TONE 0, 0x0A5, SILENCE and VOL 1, 7 (R100). -/
theorem test_encode_pseudo :
    encode (.tone 0 0x0A5) = [0x85, 0x0A] ∧ encode .silence = [0x9F, 0xBF, 0xDF, 0xFF] ∧ encode (.vol 1 7) = [0xB7] := by
  decide

/-! ## Commands (V-DW, V-CMD) -/

/-- V-DW-1, V-DW-2. -/
theorem test_ltone0 :
    (commands [0x85] (onPsg { psg0 with period := #v[0x3FF, 0, 0] })).map (fun s => s.psg.period) = some #v[0x3F5, 0, 0] ∧
    (commands [0x85, 0x0A] (onPsg { psg0 with period := #v[0x3FF, 0, 0] })).map (fun s => s.psg.period) =
      some #v[0x0A5, 0, 0] := by decide
/-- V-CMD-2. -/
theorem test_ltone1 :
    (commands [0xAE, 0x1F, 0x00] (onPsg psg0)).map (fun s => s.psg.period) = some #v[0, 0x00E, 0] := by decide
/-- V-CMD-1. -/
theorem test_ltone2 :
    (commands [0xCE, 0x3F] (onPsg psg0)).map (fun s => (s.psg.period, s.psg.latchCh, s.psg.latchType)) =
      some (#v[0, 0, 0x3FE], 2, .tone) := by decide
/-- V-CMD-7, V-CMD-9. -/
theorem test_lnoise :
    (commands [0xE4] (onPsg { psg0 with lfsr := 0x1234 })).map
      (fun s => (s.psg.lfsr, s.psg.nmode, s.psg.nrate, s.psg.latchCh, s.psg.latchType)) =
        some (0x8000, 1, 0, 3, .tone) ∧
    (commands [0xEB] (onPsg { psg0 with lfsr := 0x1234 })).map (fun s => (s.psg.lfsr, s.psg.nmode, s.psg.nrate)) =
        some (0x8000, 0, 3) := by decide
/-- V-CMD-3. -/
theorem test_lvol0 :
    (commands [0x90] (onPsg psg0)).map (fun s => (s.psg.vol, s.psg.latchCh, s.psg.latchType)) =
      some (#v[0, 15, 15, 15], 0, .volume) := by decide
/-- V-CMD-4. -/
theorem test_lvol1 : (commands [0xB7] (onPsg psg0)).map (fun s => (s.psg.vol, s.psg.latchCh)) =
    some (#v[15, 7, 15, 15], 1) := by decide
/-- V-CMD-5. -/
theorem test_lvol2 : (commands [0xDF, 0x03] (onPsg psg0)).map (fun s => s.psg.vol) = some #v[15, 15, 3, 15] := by decide
/-- V-CMD-6. -/
theorem test_lvol3 : (commands [0xF0, 0x2C] (onPsg psg0)).map (fun s => s.psg.vol) = some #v[15, 15, 15, 12] := by decide
/-- V-DW-5, V-DW-6: TONE_DATA_WIDTH = 4 keeps bits 9 and 8. -/
theorem test_data_width_four :
    (commands [0x85, 0x0A] { onPsg { psg0 with period := #v[0x3FF, 0, 0] } with
      cfg := { standardConfig with toneDataWidth := 4 } }).map (fun s => s.psg.period) = some #v[0x3A5, 0, 0] ∧
    (commands [0x85, 0x7F] { onPsg { psg0 with period := #v[0x3FF, 0, 0] } with
      cfg := { standardConfig with toneDataWidth := 4 } }).map (fun s => s.psg.period) = some #v[0x3F5, 0, 0] := by decide
/-- V-CMD-12, by the byte and by the sub-form. -/
theorem test_dataTone :
    (commands [0x0A] (onPsg psg0)).map (fun s => s.psg.period) = some #v[0x0A0, 0, 0] ∧
    (after (exec (.dataTone 0x0A) (onPsg psg0))).map (fun s => s.psg.period) = some #v[0x0A0, 0, 0] ∧
    why (exec (.dataVol 5) (onPsg psg0)) = some .notSelectedByLatch := by decide
/-- V-CMD-6 by the sub-form. -/
theorem test_dataVol :
    (after (exec (.dataVol 12) (onPsg { psg0 with latchCh := 3, latchType := .volume }))).map (fun s => s.psg.vol) =
      some #v[15, 15, 15, 12] := by decide
/-- V-CMD-10, V-CMD-11. -/
theorem test_dataNoise :
    (commands [0xE0, 0x07] (onPsg { psg0 with lfsr := 0x1234 })).map (fun s => (s.psg.lfsr, s.psg.nmode, s.psg.nrate)) =
      some (0x8000, 1, 3) ∧
    (after (exec (.dataNoise 1 1) (onPsg { psg0 with latchCh := 3, lfsr := 0x1234 }))).map
      (fun s => (s.psg.lfsr, s.psg.nmode, s.psg.nrate)) = some (0x8000, 1, 1) := by decide

/-! ## HOST ports and the worker (V-Q, V-W) -/

theorem test_wr : (after (exec (.wr 0x80) (onPsg { psg0 with q := [0x9F] }))).map (fun s => (s.psg.q, s.psg.wrDropped)) =
    some ([0x9F, 0x80], 0) := by decide
/-- V-Q-1. -/
theorem test_wr_full (q : List Byte) (h : q.length = 1024) :
    (after (exec (.wr 0x9F) (onPsg { psg0 with q := q }))).map (fun s => (s.psg.q, s.psg.wrDropped)) = some (q, 1) := by
  show (after (execWr _ _)).map _ = _
  simp [execWr, State.write, Psg.write, Psg.qLen, queueCap, h, onPsg, after, Psg.dropWrite, psg0, Psg.initial]
theorem test_adv : (after (exec (.adv 255) (onPsg { psg0 with credit := 1 }))).map (fun s => s.psg.credit) = some 256 := by
  decide
theorem test_sync : (after (exec .sync (onPsg psg0))).map (fun s => s.psg.syncPending) = some true := by decide
/-- V-W-1. -/
theorem test_wake :
    (after (exec .wake (onPsg { psg0 with syncPending := true }))).map (fun s => (s.psg.syncPending, s.psg.worker)) =
      some (false, .draining) ∧ why (exec .wake (onPsg psg0)) = some .notEnabled := by decide
/-- V-W-3: no credit, no step. -/
theorem test_sleep :
    (after (exec .sleep (onPsg { psg0 with worker := .draining, credit := 15, q := [0x90] }))).map
      (fun s => (s.psg.worker, s.psg.credit, s.psg.q)) = some (.idle, 15, [0x90]) ∧
    why (exec .step (onPsg { psg0 with worker := .draining, credit := 15 })) = some .notEnabled := by decide
/-- P1, step 1: the byte that sets period 8 starts the channel in the same step; the noise generator clocks. -/
theorem test_step_first :
    let o := after (exec .step (drainingWith [0x88, 0x00, 0x90] 160))
    o.map (fun s => (s.psg.period, s.psg.tcnt, s.psg.tpol)) =
      some (#v[8, 0, 0], #v[128, 0, 0], #v[true, false, false]) ∧
    o.map (fun s => (s.psg.lfsr, s.psg.nff)) = some (0x4000, true) ∧
    o.map (fun s => (s.psg.cbAcc, s.psg.credit, s.psg.q)) = some (16, 144, [0x00, 0x90]) := by decide
/-- V-CB-2, V-S-3: three strobes in one step, each (15, 0, 10, 6). -/
theorem test_step_strobes :
    (after (exec .step { onPsg { psg0 with
        worker := .draining, credit := 16, vol := #v[0, 0, 5, 9], tpol := #v[true, false, true], npol := true, ncnt := 48 }
        with cfg := { standardConfig with callbackPeriod := 5 } })).map (fun s => (s.out.samples, s.psg.cbAcc)) =
      some ([⟨15, 0, 10, 6⟩, ⟨15, 0, 10, 6⟩, ⟨15, 0, 10, 6⟩], 1) := by decide

/-- One call of ToneAdvance on channel 0. -/
def tone (p : BitVec 10) (n : Int) (b : Bool) : Int × Bool :=
  let r := { psg0 with period := #v[p, 0, 0], tcnt := #v[n, 0, 0], tpol := #v[b, false, false] }.toneAdvance 0
  (r.tcnt[0], r.tpol[0])

/-- V-T-2, V-T-4, V-T-5, V-T-7, V-T-8, V-T-9, V-T-13, V-T-15, V-T-16. -/
theorem test_tone_rows :
    tone 0 0 true = (0, true) ∧ tone 7 0 false = (0, false) ∧ tone 8 0 false = (128, true) ∧
    tone 1023 0 false = (16368, true) ∧ tone 0 16 false = (0, true) ∧ tone 1 16 true = (16, true) ∧
    tone 2 16 false = (32, true) ∧ tone 8 16 true = (128, false) ∧ tone 8 32 true = (16, true) := by decide

/-- One call of NoiseAdvance. -/
def noise (mult : Nat) (p2 : BitVec 10) (r : BitVec 2) (m : BitVec 1) (n : Int) (f : Bool) (l : BitVec 16) (b : Bool) :
    Int × Bool × BitVec 16 × Bool :=
  let q := { psg0 with
    period := #v[0, 0, p2], nrate := r, nmode := m, ncnt := n, nff := f, lfsr := l, npol := b }.noiseAdvance
      { standardConfig with noiseMult := mult }
  (q.ncnt, q.nff, q.lfsr, q.npol)

/-- V-N-2 to V-N-6, V-N-9, V-N-11 to V-N-13. -/
theorem test_noise_rows :
    noise 1 0 0 1 16 true 0x4000 false = (16, false, 0x4000, false) ∧
    noise 1 0 0 1 16 false 0x0008 false = (16, true, 0x8004, false) ∧
    noise 1 0 0 1 16 false 0x2001 false = (16, true, 0x9000, true) ∧
    noise 1 0 0 1 16 false 0x0009 false = (16, true, 0x0004, true) ∧
    noise 1 0 0 0 16 false 0x0009 false = (16, true, 0x8004, true) ∧
    noise 16 0 2 1 16 false 0x8000 false = (1024, true, 0x4000, false) ∧
    noise 16 0x020 3 1 16 false 0x8000 false = (512, true, 0x4000, false) ∧
    noise 1 0 0 1 48 false 0x8000 true = (32, false, 0x8000, true) ∧
    noise 1 0 3 0 0 false 0x8000 false = (0, true, 0x4000, false) := by decide

/-- V-S-5: a disabled channel gives 0 (D13). -/
theorem test_channel_enable :
    { psg0 with vol := #v[0, 0, 0, 0], tpol := #v[true, true, true], npol := true }.samples
      { standardConfig with chEnable := #v[true, false, true, false] } = ⟨15, 0, 15, 0⟩ := by decide

/-! ## The video buffer (V-G, V-VID) -/

/-- V-G-1, V-G-2, V-G-6. -/
theorem test_geometry :
    (standardConfig.totalSize, standardConfig.partSize, standardConfig.linesPerPart) = (16, 8, 1) ∧
    (let c := { standardConfig with width := 256, height := 192, partCount := 8 }
     (c.totalSize, c.partSize, c.linesPerPart) = (98304, 12288, 24)) ∧
    (let c := { standardConfig with height := 3 }
     (c.totalSize, c.partSize, c.linesPerPart) = (24, 12, 1)) := by decide
/-- V-VID-1: the payload byte lands behind the prefix; out of range is refused. -/
theorem test_pixwr :
    (after (exec (.pixwr 1 7 0x17) State.reset)).map
      (fun s => (s.video.memRead s.cfg 0 1 8, s.video.memRead s.cfg 0 1 0)) = some (0x17, 0xA5) ∧
    why (exec (.pixwr 0 8 0) State.reset) = some .pixelOutOfRange ∧
    why (exec (.pixwr 2 0 0) State.reset) = some .pixelOutOfRange := by decide
/-- V-VID-4: an extra part can be written. -/
theorem test_pixwr_extra_part :
    (after (exec (.pixwr 2 7 0x55) { State.reset with cfg := { standardConfig with extraParts := 1, prefixTag := 0 } })).map
      (fun s => (s.video.memRead s.cfg 0 2 8, s.video.memRead s.cfg 0 2 0)) = some (0x55, 0) := by decide
/-- V-VID-2, first two rows. -/
theorem test_tick :
    (after (exec .tick State.reset)).map (fun s => (s.video.draw, s.video.slot, s.video.droppedFrames)) =
      some (1, some 0, 0) ∧
    (after (exec .tick (onVideo { Video.initial with draw := 1, slot := some 0 }))).map
      (fun s => (s.video.draw, s.video.slot, s.video.droppedFrames)) = some (1, some 0, 1) := by decide
/-- V-VID-2, fourth row: the slot is empty but a transmission is active (D23). -/
theorem test_tick_during_transmission :
    (after (exec .tick (sending 0))).map (fun s => (s.video.draw, s.video.slot, s.video.droppedFrames)) =
      some (1, none, 1) := by decide
theorem test_txstart :
    (after (exec .txstart (onVideo { Video.initial with draw := 1, slot := some 0 }))).map
      (fun s => (s.video.slot, s.video.txActive, s.video.txBuf, s.video.txPart)) = some (none, true, 0, 0) := by decide
/-- V-VID-2: one part, 9 bytes, prefix first. -/
theorem test_txpart :
    (after (exec .txpart (onVideo { Video.initial with
        mem := [(1, 0x00), (2, 0x01), (3, 0x02), (4, 0x03), (5, 0x04), (6, 0x05), (7, 0x06), (8, 0x07)]
        draw := 1, txActive := true }))).map (fun s => (s.out.transfers, s.video.txPart)) =
      some ([⟨[0xA5, 0x00, 0x01, 0x02, 0x03, 0x04, 0x05, 0x06, 0x07], 9⟩], 1) := by decide
theorem test_txend :
    (after (exec .txend (sending 2))).map (fun s => (s.video.txActive, s.video.txPart)) = some (false, 2) ∧
    why (exec .txend (sending 1)) = some .notEnabled ∧ why (exec .txpart (sending 2)) = some .notEnabled := by decide

/-! ## RESET, outputs, pseudo-instructions -/

theorem test_reset :
    (after (exec (.reset standardConfig) State.beforeReset)).map (fun s => (s.psg.vol, s.psg.lfsr, s.resetDone)) =
      some (#v[15, 15, 15, 15], 0x8000, true) ∧
    why (exec (.reset standardConfig) State.reset) = some .secondReset ∧
    why (exec (.reset { standardConfig with partCount := 3 }) State.beforeReset) = some .illegalConfiguration := by decide
theorem test_sample : (after (exec (.sample 15 0 10 6) State.reset)).map (fun s => s.out.samples) =
    some [⟨15, 0, 10, 6⟩] := by decide
theorem test_tx : (after (exec (.tx [0xA5, 1] 2) State.reset)).map (fun s => s.out.transfers) =
    some [⟨[0xA5, 1], 2⟩] := by decide
theorem test_tone : (after (exec (.tone 0 0x0A5) State.reset)).map (fun s => s.psg.q) = some [0x85, 0x0A] := by decide
theorem test_vol : (after (exec (.vol 1 7) State.reset)).map (fun s => s.psg.q) = some [0xB7] := by decide
theorem test_silence : (after (exec .silence State.reset)).map (fun s => s.psg.q) = some [0x9F, 0xBF, 0xDF, 0xFF] := by
  decide
theorem test_wrs : (after (exec (.wrs 0x90) State.reset)).map (fun s => (s.psg.q, s.psg.syncPending)) =
    some ([0x90], true) := by decide
theorem test_endframe :
    (after (exec .endframe State.reset)).map (fun s => (s.psg.syncPending, s.video.draw, s.video.slot)) =
      some (true, 1, some 0) := by decide

/-! ## Steps of the machine -/

/-- The step after withFetchWord executes the command: LVOL1 7 and LTONE0 8. -/
theorem test_step_fetches :
    (after (step (State.reset.withFetchWord 8 0xB7))).map (fun s => (s.psg.vol, s.psg.latchCh)) =
      some (#v[15, 7, 15, 15], 1) ∧
    (after (step (State.reset.withFetchWord 8 0x88))).map (fun s => (s.psg.period, s.psg.tcnt)) =
      some (#v[8, 0, 0], #v[128, 0, 0]) := by decide
/-- A program line of two events: the first happens, the second stays in front (R99, R100). -/
theorem test_step_host :
    (after (step { State.reset with env := ⟨[.wrs 0x90, .tick], [.host], 0⟩ })).map
      (fun s => (s.psg.q, s.psg.syncPending, s.env.program, s.env.schedule)) =
        some ([0x90], false, [.sync, .tick], []) := by decide
/-- Before RESET a HOST line other than RESET is refused, and a worker event is no program line (R99, R250). -/
theorem test_step_refusals :
    why (step { State.beforeReset with env := ⟨[.tick], [.host], 0⟩ }) = some .beforeReset ∧
    why (step { State.reset with env := ⟨[.wake], [.host], 0⟩ }) = some .notAHostEvent := by decide

/-! ## Witnesses: for each statement with hypotheses, a state and operands that meet them together -/

/-- The latch at the volume of channel 3, at tone 2 with width 6 and with width 4, and at the noise control. -/
theorem witness_DataWritesLatchedRegister :
    (onPsg { psg0 with latchCh := 3, latchType := .volume }).psg.latchType = .volume ∧
    (let s := onPsg { psg0 with latchCh := 2 }
     s.psg.latchType = .tone ∧ s.psg.latchCh.val = (2 : Fin 3).val ∧ s.cfg.toneDataWidth = 6 ∧ (0 : Fin 3) ≠ 2) ∧
    (let s := { onPsg { psg0 with latchCh := 2 } with cfg := { standardConfig with toneDataWidth := 4 } }
     s.psg.latchType = .tone ∧ s.psg.latchCh.val = (2 : Fin 3).val ∧ s.cfg.toneDataWidth = 4) ∧
    (let s := onPsg { psg0 with latchCh := 3 }
     s.psg.latchType = .tone ∧ s.psg.latchCh = 3) := by decide
theorem witness_LtoneLvol_other_channels : (2 : Fin 3) ≠ 0 ∧ (3 : Fin 4) ≠ 0 := by decide
theorem witness_DataToneLoadsHighBits :
    (let s := onPsg { psg0 with latchCh := 2 }
     s.psg.latchType = .tone ∧ s.psg.latchCh.val = (2 : Fin 3).val ∧ s.cfg.toneDataWidth = 6) ∧
    (let s := { onPsg psg0 with cfg := { standardConfig with toneDataWidth := 4 } }
     s.psg.latchType = .tone ∧ s.psg.latchCh.val = (0 : Fin 3).val ∧ s.cfg.toneDataWidth = 4) := by decide
theorem witness_DataVolAndNoiseForms :
    (onPsg { psg0 with latchCh := 3, latchType := .volume }).psg.latchType = .volume ∧
    (onPsg { psg0 with latchCh := 3 }).psg.latchType = .tone ∧ (onPsg { psg0 with latchCh := 3 }).psg.latchCh = 3 := by
  decide
theorem witness_DataIsItsSelectedForm :
    (Instr.dataVol 5) ≠ resolveData (onPsg psg0).psg.latchCh (onPsg psg0).psg.latchType 5 ∧
    (Instr.dataNoise 1 1) ≠ resolveData (onPsg psg0).psg.latchCh (onPsg psg0).psg.latchType 5 ∧
    (Instr.dataTone 5) ≠ resolveData 3 .tone 5 ∧ (Instr.dataTone 5) ≠ resolveData 0 .volume 5 := by decide
theorem witness_LatchThenDataRoundTrip :
    (onPsg psg0).cfg.toneDataWidth = 6 ∧
    { onPsg psg0 with cfg := { standardConfig with toneDataWidth := 4 } }.cfg.toneDataWidth = 4 := by decide
/-- A new period of exactly 8, by LTONE 0, 8 from period 0. -/
theorem witness_PeriodWriteStartsChannelInSameStep :
    let s := drainingWith [0x88, 0x00] 16
    s.psg.worker = .draining ∧ 16 ≤ s.psg.credit ∧ s.cfg.callbackPeriod ≠ 0 ∧
    s.psg.q = encodeCommand (.ltone 0 8) :: [0x00] ∧ s.psg.tcnt[(0 : Fin 3)] = 0 ∧
    8 ≤ (s.psg.period[(0 : Fin 3)].extractLsb' 4 6 ++ (8 : Nibble)).toNat := by decide
theorem witness_DecodeOfEncode :
    (Instr.ltone0 15).port = some .command ∧ (Instr.wr 255).port = some .wr ∧ (Instr.adv 0).port = some .adv ∧
    Instr.sync.port = some .sync ∧ Instr.tick.port = some .tick ∧ (Instr.sample 0 0 0 0).port = some .sample := by decide
theorem witness_DataFormsDecodeUnderLatch : (2 : Fin 4) ≠ 3 ∧ (0x80 : Byte)[7] = true := by decide
theorem witness_IgnoredDataBitsHaveNoEffect :
    (0x3F : Byte)[7] = false ∧ (0xE3 : Byte).extractLsb' 4 4 = 0xE#4 ∧
    (onPsg { psg0 with latchType := .volume }).psg.latchType = .volume ∧
    (0x3C : BitVec 6).extractLsb' 0 4 = (0x0C : BitVec 6).extractLsb' 0 4 ∧
    (onPsg { psg0 with latchCh := 3 }).psg.latchType = .tone ∧ (onPsg { psg0 with latchCh := 3 }).psg.latchCh = 3 ∧
    (0x3D : BitVec 6).extractLsb' 0 3 = (0x05 : BitVec 6).extractLsb' 0 3 ∧
    { onPsg psg0 with cfg := { standardConfig with toneDataWidth := 4 } }.cfg.toneDataWidth = 4 ∧
    (onPsg psg0).psg.latchCh ≠ 3 := by decide
/-- The last byte that finds room, at 1023 bytes. -/
theorem witness_WrAppendsToQueue : (onPsg { psg0 with q := List.replicate 1023 0x9F }).psg.q.length < 1024 := by
  show (List.replicate 1023 (0x9F : Byte)).length < 1024
  rw [List.length_replicate]
  decide
theorem witness_WrDropsNewestWhenFull : (onPsg { psg0 with q := List.replicate 1024 0x9F }).psg.q.length = 1024 := List.length_replicate
/-- SLEEP at credit 15, the most that sleeps. -/
theorem witness_WakeAndSleepComplete :
    (onPsg { psg0 with syncPending := true }).psg.worker = .idle ∧
    (onPsg { psg0 with syncPending := true }).psg.syncPending = true ∧
    (drainingWith [] 15).psg.worker = .draining ∧ (drainingWith [] 15).psg.credit < 16 := by decide
/-- STEP at credit 16, the least that steps: StepExecutesHeadCommand (both clauses), StepFrameAndCredit,
StepAdvancesTones, StepAdvancesNoise, StepEmitsStrobes. -/
theorem witness_Step :
    let s := drainingWith [] 16
    s.psg.worker = .draining ∧ 16 ≤ s.psg.credit ∧ s.cfg.callbackPeriod ≠ 0 ∧ s.psg.q = [] ∧
    (drainingWith [0x7F] 16).psg.q = 0x7F :: [] := by decide
/-- The four cases of StepAdvancesTones: no guard at period 7; a crossing at count 16; none at 17; a start at 8. -/
theorem witness_StepAdvancesTones_cases :
    ¬ (0 < (0 : Int) ∨ 8 ≤ (7 : BitVec 10).toNat) ∧ (16 : Int) - 16 ≤ 0 ∧ ¬ ((17 : Int) - 16 ≤ 0) ∧
    (0 < (0 : Int) ∨ 8 ≤ (8 : BitVec 10).toNat) := by decide
/-- The clauses of StepAdvancesNoise: a crossing that clocks the LFSR in periodic and in white mode, and none. -/
theorem witness_StepAdvancesNoise_cases :
    (let s := drainingWith [] 16
     s.psg.ncnt - 16 ≤ 0 ∧ s.psg.nff = false ∧ (s.psg.dequeue s.cfg).nmode = 0) ∧
    (let s := drainingWith [0xE7] 16
     (s.psg.dequeue s.cfg).nmode = 1 ∧ (s.psg.dequeue s.cfg).nrate = 3 ∧ s.cfg.lfsrTaps = 0x0009#16) ∧
    ¬ ((onPsg { psg0 with ncnt := 17 }).psg.ncnt - 16 ≤ 0) := by decide
/-- A crossing with period 1. -/
theorem witness_PcmPeriodNeverToggles :
    ∃ s t : State, exec .step s = .next t ∧ t.psg.period[(0 : Fin 3)] = 1 ∧ s.psg.tcnt[(0 : Fin 3)] = 16 :=
  ⟨onPsg { psg0 with worker := .draining, credit := 16, period := #v[1, 0, 0], tcnt := #v[16, 0, 0] }, _,
    exec_step_enabled rfl (by decide) (by decide), by decide, by decide⟩
theorem witness_SmallPeriodDoesNotStartChannel :
    let s := drainingWith [0x87] 16
    s.psg.worker = .draining ∧ 16 ≤ s.psg.credit ∧ s.cfg.callbackPeriod ≠ 0 ∧ s.psg.tcnt[(0 : Fin 3)] = 0 ∧
    ((s.psg.dequeue s.cfg).period[(0 : Fin 3)]).toNat < 8 ∧ ((s.psg.dequeue s.cfg).period[(0 : Fin 3)]).toNat = 7 := by
  decide
/-- Period 2, at the last step before the toggle and at the toggle. -/
theorem witness_RunningChannelTogglesEveryPeriod :
    let s := onPsg { psg0 with worker := .draining, credit := 32, period := #v[2, 0, 0], tcnt := #v[32, 0, 0] }
    s.psg.worker = .draining ∧ s.psg.q = [] ∧ s.cfg.callbackPeriod ≠ 0 ∧ 2 ≤ s.psg.period[(0 : Fin 3)].toNat ∧
    s.psg.tcnt[(0 : Fin 3)] = ((s.psg.period[(0 : Fin 3)].toNat * 16 : Nat) : Int) ∧
    1 ≤ s.psg.period[(0 : Fin 3)].toNat ∧ 2 ≤ s.psg.period[(0 : Fin 3)].toNat ∧ 16 * 2 ≤ s.psg.credit ∧
    ((2 : Nat) = s.psg.period[(0 : Fin 3)].toNat) ∧ ¬ ((1 : Nat) = s.psg.period[(0 : Fin 3)].toNat) := by decide
theorem witness_LfsrClockIsInjective :
    standardConfig.lfsrTaps = 0x0009#16 ∧ psg0.nmode = { psg0 with lfsr := 0x1234 }.nmode ∧ psg0.lfsr ≠ 0 ∧
    (psg0.lfsrClock standardConfig).lfsr = (psg0.lfsrClock standardConfig).lfsr := by decide
theorem witness_PeriodicNoiseHasPeriodSixteen : psg0.nmode = 0 := by decide
/-- StrobesPerCredit and SilentVolumesGiveZeroSamples with 21 steps (V-CB-1). -/
theorem witness_StrobesPerCredit :
    let s := drainingWith [] 336
    s.psg.worker = .draining ∧ s.psg.q = [] ∧ (∀ c : Fin 4, s.psg.vol[c] = 0xF) ∧
    s.psg.cbAcc < s.cfg.callbackPeriod ∧ 16 * 21 ≤ s.psg.credit := by decide
theorem witness_CreditIsConserved :
    ∃ s t : State, s.resetDone = true ∧ runEvents [.adv 255, .sync, .wake, .step] s = .next t := ⟨State.reset, _, rfl, rfl⟩
theorem witness_QueueIsFirstInFirstOut :
    let s := drainingWith [0x88, 0x00, 0x90] 32
    s.psg.worker = .draining ∧ s.cfg.callbackPeriod ≠ 0 ∧ s.psg.q = [0x88, 0x00] ++ [0x90] ∧
    16 * ([0x88, 0x00] : List Byte).length ≤ s.psg.credit := by decide
/-- Each of the six conditions holds somewhere and fails somewhere. -/
theorem witness_InternalEventsNeedTheirConditions :
    ¬ (psg0.worker = .idle ∧ psg0.syncPending = true) ∧
    ¬ ((drainingWith [] 15).psg.worker = .draining ∧ 16 ≤ (drainingWith [] 15).psg.credit) ∧
    ¬ ((drainingWith [] 16).psg.worker = .draining ∧ (drainingWith [] 16).psg.credit < 16) ∧
    ¬ ((sending 0).video.txActive = false ∧ (sending 0).video.slot.isSome = true) ∧
    ¬ ((sending 2).video.txActive = true ∧ (sending 2).video.txPart < standardConfig.partCount) ∧
    ¬ ((sending 1).video.txActive = true ∧ (sending 1).video.txPart = standardConfig.partCount) := by decide
/-- Also the last cell of the last part of buffer 1. -/
theorem witness_GeometryIsExact :
    standardConfig.Legal ∧ 1 < standardConfig.nParts ∧ 8 ≤ standardConfig.partSize ∧
    standardConfig.cellAddr 1 1 8 + 1 = standardConfig.cellCount := by decide
theorem witness_RowLiesInOnePart :
    standardConfig.Legal ∧ standardConfig.partSize % (standardConfig.width * 2) = 0 ∧ 1 < standardConfig.height := by decide
/-- The last payload byte of the last part, and another cell. -/
theorem witness_PixwrStoresOneByte :
    1 < State.reset.cfg.nParts ∧ 7 < State.reset.cfg.partSize ∧
    (0 : Nat) ≠ State.reset.cfg.cellAddr State.reset.video.draw 1 8 := by decide
/-- The first offset, and the first part, out of range. -/
theorem witness_PixwrOutOfRangeIsRefused :
    (State.reset.cfg.nParts ≤ 2 ∨ State.reset.cfg.partSize ≤ 0) ∧ (State.reset.cfg.nParts ≤ 0 ∨ State.reset.cfg.partSize ≤ 8) := by
  decide
theorem witness_TickHandsFrameOver : State.reset.video.slot = none ∧ State.reset.video.txActive = false := by decide
/-- Dropped with the slot occupied, and with a transmission active. -/
theorem witness_TickDropsFrameInFlight :
    (onVideo { Video.initial with draw := 1, slot := some 0 }).video.slot.isSome = true ∧
    (sending 0).video.txActive = true := by decide
/-- A frame handed over: TXSTART, and TransmissionSendsWholeFrame; and all parts sent: TXEND. -/
theorem witness_TxstartAndTxendComplete :
    (let s := onVideo { Video.initial with draw := 1, slot := some 0 }
     s.video.txActive = false ∧ s.video.slot = some 0) ∧
    ((sending 2).video.txActive = true ∧ (sending 2).video.txPart = (sending 2).cfg.partCount) := by decide
theorem witness_TxpartSendsOnePart :
    (sending 1).video.txActive = true ∧ (sending 1).video.txPart < (sending 1).cfg.partCount ∧
    8 ≤ (sending 1).cfg.partSize := by decide

/-- The invariant's halves for a state with a transmission from buffer 0. -/
theorem psg0_inv : psg0.Inv standardConfig := ⟨by decide, by decide, by decide, by decide, by decide⟩
theorem sending_video_inv : (sending 0).video.Inv standardConfig where
  memForm := by decide
  prefixes := by decide
  oneOwner := by decide
  slotOther := by decide
  txOther := by decide
  partBound := by decide
theorem sending_inv : (sending 0).Inv := ⟨rfl, by decide, psg0_inv, sending_video_inv⟩

/-- A frame handed over from buffer 0 and not yet taken. -/
def handedOver : State := onVideo { Video.initial with draw := 1, slot := some 0 }
theorem handedOver_inv : handedOver.Inv where
  done := rfl
  legal := by decide
  psg := psg0_inv
  video := ⟨by decide, by decide, by decide, by decide, by decide, by decide⟩

/-- Both clauses, with the frame in the slot and in transmission; the last at the TXEND that ends it. -/
theorem witness_RendererCannotTearTransmission :
    (∃ t, handedOver.Inv ∧ handedOver.video.sends 0 ∧ exec (.pixwr 0 0 0xEE) handedOver = .next t) ∧
    (∃ t, (sending 0).Inv ∧ (sending 0).video.sends 0 ∧ exec (.pixwr 1 7 0xEE) (sending 0) = .next t) ∧
    (∃ s t : State, s.Inv ∧ s.video.sends 0 ∧ step s = .next t ∧ t.video.sends 0) ∧
    (∃ s t : State, s.Inv ∧ s.video.sends 0 ∧ step s = .next t ∧ s.video.txPart = s.cfg.partCount ∧
      ¬ t.video.sends 0) ∧
    1 < (sending 0).cfg.nParts ∧ 8 ≤ (sending 0).cfg.partSize :=
  ⟨⟨_, handedOver_inv, .inl rfl, rfl⟩, ⟨_, sending_inv, .inr ⟨rfl, rfl⟩, rfl⟩,
    ⟨{ handedOver with env := ⟨[.tick], [.host], 0⟩ }, _, ⟨rfl, by decide, psg0_inv, handedOver_inv.video⟩, .inl rfl, rfl,
      .inl rfl⟩,
    ⟨{ sending 2 with env := ⟨[], [.vidw], 0⟩ }, _,
      ⟨rfl, by decide, psg0_inv, ⟨by decide, by decide, by decide, by decide, by decide, by decide⟩⟩, .inr ⟨rfl, rfl⟩, rfl,
      rfl, by decide⟩,
    by decide, by decide⟩
theorem witness_DropCountFollowsStalls : State.reset.video.slot = none ∧ State.reset.video.txActive = false := by decide
theorem witness_ResetEstablishesState :
    State.beforeReset.resetDone = false ∧ standardConfig.Legal ∧ 1 ≤ 8 ∧ 8 ≤ standardConfig.partSize := by decide
/-- A first RESET by HOST's program, an illegal one, a second one, a line that is refused before RESET, and a turn before
RESET in which nothing moves. -/
theorem witness_ResetIsSingleShot :
    State.reset.resetDone = true ∧ State.beforeReset.resetDone = false ∧ standardConfig.Legal ∧
    ¬ ({ standardConfig with partCount := 3 } : Config).Legal ∧
    (let s : State := { State.beforeReset with env := ⟨[.reset standardConfig, .tick], [.host, .psgw], 0⟩ }
     s.resetDone = false ∧ s.env.schedule = .host :: [.psgw] ∧ s.env.program = .reset standardConfig :: [.tick] ∧
     ∃ t, step s = .next t) ∧
    (let s : State := { State.beforeReset with env := ⟨[.silence], [.host], 0⟩ }
     s.resetDone = false ∧ s.agent = .host ∧ s.env.program = .silence :: [] ∧ isProgramLine .silence = true) ∧
    (∀ c : Config, Instr.silence ≠ .reset c) ∧
    (∃ t, step { State.beforeReset with env := ⟨[], [.psgw], 0⟩ } = .next t) :=
  ⟨rfl, rfl, by decide, by decide, ⟨rfl, rfl, rfl, _, rfl⟩, by decide, (fun _ h => nomatch h), ⟨_, rfl⟩⟩
/-- A worker event, an output and a DATA sub-form on HOST's program, before RESET and after it. -/
theorem witness_NonHostLinesAreRefused :
    (∀ d : Bool, { State.reset with resetDone := d, env := ⟨[.wake], [.host], 0⟩ }.agent = .host) ∧
    isProgramLine .wake = false ∧ isProgramLine (.sample 0 1 2 3) = false ∧ isProgramLine (.dataVol 5) = false ∧
    isProgramLine (.data 5) = true :=
  ⟨fun _ => rfl, rfl, rfl, rfl, rfl⟩
theorem witness_FirstStepAfterReset : standardConfig.Legal := by decide
/-- One schedule for each clause of StepRunsChosenEvent. -/
theorem witness_StepRunsChosenEvent :
    (let s : State := { State.reset with env := ⟨[.wrs 0x90, .tick], [.host, .psgw], 0⟩ }
     s.resetDone = true ∧ s.env.schedule = .host :: [.psgw] ∧ s.env.program = .wrs 0x90 :: [.tick] ∧
     hostEvents (.wrs 0x90) = .wr 0x90 :: [.sync]) ∧
    (let s : State := { onPsg { psg0 with syncPending := true } with env := ⟨[], [.psgw], 0⟩ }
     s.resetDone = true ∧ s.env.schedule = .psgw :: [] ∧ s.psg.worker = .idle ∧ s.psg.syncPending = true) ∧
    (drainingTurn.env.schedule = .psgw :: [] ∧ drainingTurn.psg.worker = .draining ∧ 16 ≤ drainingTurn.psg.credit) ∧
    ((drainingWith [] 15).psg.worker = .draining ∧ (drainingWith [] 15).psg.credit < 16) ∧
    (let s : State := { onVideo { Video.initial with draw := 1, slot := some 0 } with env := ⟨[], [.vidw], 0⟩ }
     s.resetDone = true ∧ s.env.schedule = .vidw :: [] ∧ s.video.txActive = false ∧ s.video.slot.isSome = true) ∧
    ((sending 1).video.txActive = true ∧ (sending 1).video.txPart < (sending 1).cfg.partCount) ∧
    ((sending 2).video.txActive = true ∧ (sending 2).video.txPart = (sending 2).cfg.partCount) := by decide
theorem witness_StepRunsDecodedCommand :
    (let s : State := { drainingWith [0x88] 16 with env := ⟨[], [.psgw], 0⟩ }
     s.resetDone = true ∧ s.env.schedule = .psgw :: [] ∧ s.psg.worker = .draining ∧ 16 ≤ s.psg.credit ∧
     s.cfg.callbackPeriod ≠ 0 ∧ s.psg.q = 0x88 :: []) ∧ State.reset.cfg.callbackPeriod ≠ 0 := by decide
theorem witness_InvariantHoldsAtReset :
    standardConfig.Legal ∧ ∃ t, exec (.reset standardConfig) State.beforeReset = .next t := ⟨by decide, _, rfl⟩
/-- A step that runs TXPART in a state with the invariant. -/
theorem witness_StepKeepsInvariant :
    ∃ s t : State, s.Inv ∧ step s = .next t ∧ t.video.txPart = 1 :=
  ⟨{ sending 0 with env := ⟨[], [.vidw], 0⟩ }, _, ⟨rfl, by decide, psg0_inv, sending_video_inv⟩, rfl, by decide⟩
theorem witness_ConfigurationAndDropCountersPersist : ∃ t, drainingTurn.resetDone = true ∧ step drainingTurn = .next t :=
  ⟨_, rfl, rfl⟩
theorem witness_PsgAndVideoAreIndependent :
    (∃ t, isPsgEvent .step = true ∧ exec .step draining = .next t) ∧
    (∃ t, isVideoEvent .txpart = true ∧ exec .txpart (sending 0) = .next t) := ⟨⟨_, rfl, rfl⟩, ⟨_, rfl, rfl⟩⟩
/-- PSGW blocked while a frame is in flight, VIDW blocked while PSGW drains, HOST with an empty program; and a quiescent
state with a byte waiting in the queue. -/
theorem witness_QuiescentWorkersDoNothing :
    (let s : State := { sending 1 with env := ⟨[.tick], [.psgw], 0⟩ }
     s.agent = .psgw ∧ s.psg.worker = .idle ∧ s.psg.syncPending = false ∧ s.video.txActive = true) ∧
    (let s : State := { draining with env := ⟨[.tick], [.vidw], 0⟩ }
     s.agent = .vidw ∧ s.video.slot = none ∧ s.video.txActive = false ∧ s.psg.worker = .draining) ∧
    (let s : State := { draining with env := ⟨[], [.host], 0⟩ }
     s.agent = .host ∧ s.env.program = []) ∧
    (let s : State := { onPsg { psg0 with q := [0x90] } with env := ⟨[], [.psgw], 0⟩ }
     s.quiescent = true ∧ s.agent ≠ .host) := by decide
/-- Credit 33: two steps and the SLEEP. -/
theorem witness_DrainPassTerminates :
    let s : State := { drainingWith [0x90] 33 with env := ⟨[], [.psgw, .psgw, .psgw, .host], 0⟩ }
    s.resetDone = true ∧ s.psg.worker = .draining ∧ s.cfg.callbackPeriod ≠ 0 ∧
    s.env.schedule = List.replicate (s.psg.credit / 16 + 1) .psgw ++ [.host] := by decide
/-- VIDW's four turns with turns of PSGW and HOST between them. -/
theorem witness_FrameInFlightIsFinished :
    let s : State := { handedOver with env := ⟨[], [.vidw, .psgw, .vidw, .host, .vidw, .psgw, .vidw, .host], 0⟩ }
    s.resetDone = true ∧ s.cfg.callbackPeriod ≠ 0 ∧ s.env.program = [] ∧ s.video.txActive = false ∧
    s.video.slot = some 0 ∧
    s.env.schedule = [.vidw, .psgw, .vidw, .host, .vidw, .psgw, .vidw] ++ [.host] ∧
    s.cfg.partCount + 2 ≤ ([.vidw, .psgw, .vidw, .host, .vidw, .psgw, .vidw] : List Agent).count .vidw := by decide

end Sys2Proof.Tests
end

namespace Sys2Proof.Machine

/-! ## The noise generator's computations -/

/-- The noise reload (R147) with the shift written as a power of two. -/
theorem noiseReload_eq (c : Config) (p : Psg) :
    noiseReload c p = if p.nrate = 3 then ((p.period[2].toNat * 16 : Nat) : Int)
      else (((16 * 2 ^ p.nrate.toNat) * c.noiseMult : Nat) : Int) := by
  rw [noiseReload, Nat.shiftLeft_eq, scaledPeriod]

/-- In periodic mode the feedback is the bit shifted out (R149). -/
theorem feedback_periodic (c : Config) {m : BitVec 1} (l : BitVec 16) (hm : m = 0) : feedback c m l = l[0] := by
  subst hm
  rfl

/-- In white mode with taps 0x0009 the feedback is the exclusive or of bits 0 and 3 (R149). -/
theorem feedback_white (c : Config) {m : BitVec 1} (l : BitVec 16) (hm : m = 1) (ht : c.lfsrTaps = 0x0009#16) :
    feedback c m l = (l[0] ^^ l[3]) := by
  rw [feedback, if_pos hm, ht, parity_taps]

@[simp] theorem Psg.lfsrClock_lfsr (c : Config) (p : Psg) :
    (p.lfsrClock c).lfsr = lfsrShift (feedback c p.nmode p.lfsr) p.lfsr := rfl
@[simp] theorem Psg.lfsrClock_nmode (c : Config) (p : Psg) : (p.lfsrClock c).nmode = p.nmode := rfl

/-! ## Periodic mode -/

/-- A periodic clock rotates the LFSR: bit `i` is the old bit `i + 1`, cyclically (R151). -/
theorem Psg.lfsrClock_periodic_bit (c : Config) (p : Psg) (hm : p.nmode = 0) {i : Nat} (hi : i < 16) :
    (p.lfsrClock c).lfsr.getLsbD i = p.lfsr.getLsbD ((i + 1) % 16) := by
  rw [Psg.lfsrClock_lfsr, feedback_periodic c p.lfsr hm]
  rcases Nat.lt_or_eq_of_le (Nat.le_of_lt_succ hi) with hlow | rfl
  · rw [lfsrShift_low _ _ hlow, Nat.mod_eq_of_lt (by omega)]
  · exact lfsrShift_top _ _

/-- No number of clocks changes the mode. -/
theorem Psg.iterate_lfsrClock_nmode (c : Config) (p : Psg) (n : Nat) :
    ((Psg.lfsrClock c)^[n] p).nmode = p.nmode := by
  induction n with
  | zero => rfl
  | succ n ih => rw [Function.iterate_succ_apply', Psg.lfsrClock_nmode, ih]

/-- `n` periodic clocks rotate the LFSR by `n` places (R151). -/
theorem Psg.iterate_lfsrClock_periodic_bit (c : Config) (p : Psg) (hm : p.nmode = 0) (n : Nat) {i : Nat}
    (hi : i < 16) : ((Psg.lfsrClock c)^[n] p).lfsr.getLsbD i = p.lfsr.getLsbD ((i + n) % 16) := by
  induction n generalizing i with
  | zero => rw [Nat.add_zero, Nat.mod_eq_of_lt hi, Function.iterate_zero_apply]
  | succ n ih =>
    have hmn := (p.iterate_lfsrClock_nmode c n).trans hm
    rw [Function.iterate_succ_apply', Psg.lfsrClock_periodic_bit c _ hmn hi, ih (Nat.mod_lt _ (by decide)),
      Nat.mod_add_mod, Nat.add_right_comm, Nat.add_assoc]

/-- Settles O28: a rotation of sixteen bits by sixteen places is the identity. -/
theorem periodicNoiseHasPeriodSixteen : Obligations.PeriodicNoiseHasPeriodSixteen := by
  intro c p hm
  refine BitVec.eq_of_getLsbD_eq fun i hi => ?_
  rw [p.iterate_lfsrClock_periodic_bit c hm 16 hi, Nat.add_mod_right, Nat.mod_eq_of_lt hi]

/-! ## One advance of the noise generator -/

/-- No crossing: the counter falls by 16 and nothing else happens (R152). -/
theorem Psg.noiseAdvance_counting (c : Config) (p : Psg) (h : ¬ p.ncnt - 16 ≤ 0) :
    p.noiseAdvance c = p.setNoiseCount (p.ncnt - 16) p.nff := by
  rw [Psg.noiseAdvance_eq, if_neg h]

/-- A crossing that clears the flip-flop: the counter is reloaded and the LFSR is not clocked (R148). -/
theorem Psg.noiseAdvance_clears (c : Config) (p : Psg) (h : p.ncnt - 16 ≤ 0) (hf : p.nff = true) :
    p.noiseAdvance c = p.setNoiseCount (noiseReload c p) false := by
  rw [Psg.noiseAdvance_eq, if_pos h, if_pos hf]

/-- A crossing that sets the flip-flop: the counter is reloaded and the LFSR is clocked (R148, R149). -/
theorem Psg.noiseAdvance_sets (c : Config) (p : Psg) (h : p.ncnt - 16 ≤ 0) (hf : p.nff = false) :
    p.noiseAdvance c = (p.setNoiseCount (noiseReload c p) true).setLfsr
      (lfsrShift (feedback c p.nmode p.lfsr) p.lfsr) p.lfsr[0] := by
  rw [Psg.noiseAdvance_eq, if_pos h, if_neg (by simp [hf])]

/-- The tone generators do not touch what the noise generator reads or writes (R125): one advance of all generators
leaves the noise registers as one advance of the noise generator does. -/
theorem Psg.generators_eq_noiseAdvance (c : Config) (p : Psg) :
    p.generators c = { p.noiseAdvance c with tcnt := (p.tonesAdvance).tcnt, tpol := (p.tonesAdvance).tpol } := by
  rw [Psg.generators, Psg.tonesAdvance_frame]
  simp only [Psg.noiseAdvance_eq]
  split
  · split <;> rfl
  · rfl

/-- STEP advances the noise generator once, from the registers its command left (R122, R146). -/
theorem exec_step_noise {s : State} (hw : s.psg.worker = .draining) (hc : 16 ≤ s.psg.credit)
    (hp : s.cfg.callbackPeriod ≠ 0) :
    ∃ t : State, exec .step s = .next t ∧
      t.psg.nrate = (s.psg.dequeue s.cfg).nrate ∧ t.psg.nmode = (s.psg.dequeue s.cfg).nmode ∧
      t.psg.ncnt = ((s.psg.dequeue s.cfg).noiseAdvance s.cfg).ncnt ∧
      t.psg.nff = ((s.psg.dequeue s.cfg).noiseAdvance s.cfg).nff ∧
      t.psg.lfsr = ((s.psg.dequeue s.cfg).noiseAdvance s.cfg).lfsr ∧
      t.psg.npol = ((s.psg.dequeue s.cfg).noiseAdvance s.cfg).npol := by
  refine ⟨_, exec_step_eq hw hc hp, Psg.generators_nrate _ _, Psg.generators_nmode _ _, ?_⟩
  simp only [Psg.generators_eq_noiseAdvance, and_self]

/-- Settles O26, by the three cases of one advance: no crossing, a crossing that clears the flip-flop, and one that
sets it and clocks the LFSR. -/
theorem stepAdvancesNoise : Obligations.StepAdvancesNoise := by
  intro s hw hc hp
  obtain ⟨t, hstep, hrate, hmode, hcnt, hff, hlfsr, hpol⟩ := exec_step_noise hw hc hp
  refine ⟨t, hstep, hrate, hmode, ?_⟩
  have hcnt0 := s.psg.dequeue_ncnt s.cfg
  have hff0 := s.psg.dequeue_nff s.cfg
  have hpol0 := s.psg.dequeue_npol s.cfg
  generalize s.psg.dequeue s.cfg = p at *
  rw [← hcnt0, ← hff0, ← hpol0]
  split
  next hcross =>
    rw [← noiseReload_eq]
    cases hf : p.nff with
    | true =>
      rw [p.noiseAdvance_clears s.cfg hcross hf] at hcnt hff hlfsr hpol
      exact ⟨hcnt, hff, hlfsr, hpol⟩
    | false =>
      rw [p.noiseAdvance_sets s.cfg hcross hf] at hcnt hff hlfsr hpol
      have htop : t.psg.lfsr[15] = feedback s.cfg p.nmode p.lfsr := by rw [hlfsr]; exact lfsrShift_top _ _
      refine ⟨hcnt, hff, hpol, fun j hj => ?_, fun hm => ?_, fun hm ht => ?_⟩
      · rw [hlfsr]; exact lfsrShift_low _ _ hj
      · rw [htop, feedback_periodic s.cfg p.lfsr hm]
      · rw [htop, feedback_white s.cfg p.lfsr hm ht]
  next hcount =>
    rw [p.noiseAdvance_counting s.cfg hcount] at hcnt hff hlfsr hpol
    exact ⟨hcnt, hff, hlfsr, hpol⟩

end Sys2Proof.Machine

namespace Sys2Proof.Machine

/-! ## The turn of each agent -/

/-- A turn that comes to an event is a step that runs the event (R7, R73). -/
theorem step_of_turn_event {s t : State} {i : Instr} (h : s.turn = .event i t) : step s = exec i t := by
  rw [step, h]

theorem State.turn_host {s : State} (ha : s.agent = .host) : s.turn = s.takeTurn.hostTurn := by
  rw [State.turn, ha]

/-- After RESET PSGW's turn is taken (R250). -/
theorem State.turn_psgw {s : State} (hd : s.resetDone = true) (ha : s.agent = .psgw) :
    s.turn = s.takeTurn.psgwTurn := by
  rw [State.turn, ha]
  exact if_pos hd

/-- After RESET VIDW's turn is taken (R250). -/
theorem State.turn_vidw {s : State} (hd : s.resetDone = true) (ha : s.agent = .vidw) :
    s.turn = s.takeTurn.vidwTurn := by
  rw [State.turn, ha]
  exact if_pos hd

/-- After RESET every HOST event is admitted; whether a second RESET has a meaning is for `exec` to say (R252). -/
theorem State.admits_of_resetDone {s : State} (hd : s.resetDone = true) (e : Instr) : s.admits e = true := by
  cases e
  case reset c => rfl
  all_goals exact hd

/-- HOST's turn runs the first event of the program's first line; the line's other events stay in front (R99). -/
theorem State.hostTurn_event {s : State} {line e : Instr} {more rest : List Instr}
    (hp : s.env.program = line :: rest) (hl : hostEvents line = e :: more) (hadm : s.admits e = true) :
    s.hostTurn = .event e (s.setProgram (more ++ rest)) := by
  simp [State.hostTurn, hp, hl, hadm]

/-- WAKE is the event of an idle PSGW with a SYNC pending (R120). -/
theorem State.psgwTurn_wake {s : State} (hw : s.psg.worker = .idle) (hp : s.psg.syncPending = true) :
    s.psgwTurn = .event .wake s := by
  simp [State.psgwTurn, Psg.wakeEnabled, hw, hp]

/-- STEP is the event of a draining PSGW with a step's credit (R122). -/
theorem State.psgwTurn_step {s : State} (hw : s.psg.worker = .draining) (hc : 16 ≤ s.psg.credit) :
    s.psgwTurn = .event .step s := by
  simp [State.psgwTurn, Psg.wakeEnabled, Psg.stepEnabled, hw, hc]

/-- SLEEP is the event of a draining PSGW without a step's credit (R128). -/
theorem State.psgwTurn_sleep {s : State} (hw : s.psg.worker = .draining) (hc : s.psg.credit < 16) :
    s.psgwTurn = .event .sleep s := by
  simp [State.psgwTurn, Psg.wakeEnabled, Psg.stepEnabled, Psg.sleepEnabled, hw, hc]

/-- TXSTART is VIDW's event with a frame handed over and no transmission active (R204). -/
theorem State.vidwTurn_txstart {s : State} (ha : s.video.txActive = false) (hs : s.video.slot.isSome = true) :
    s.vidwTurn = .event .txstart s := by
  simp [State.vidwTurn, ha, hs]

/-- TXPART is VIDW's event while parts of the frame are left (R205). -/
theorem State.vidwTurn_txpart {s : State} (ha : s.video.txActive = true) (hp : s.video.txPart < s.cfg.partCount) :
    s.vidwTurn = .event .txpart s := by
  simp [State.vidwTurn, Video.partEnabled, ha, hp]

/-- TXEND is VIDW's event once every part is sent (R206). -/
theorem State.vidwTurn_txend {s : State} (ha : s.video.txActive = true) (hp : s.video.txPart = s.cfg.partCount) :
    s.vidwTurn = .event .txend s := by
  simp [State.vidwTurn, Video.partEnabled, Video.endEnabled, ha, hp]

/-! ## A step after RESET, by the agent the schedule names -/

section
variable {s : State} {sched : List Agent} (hd : s.resetDone = true)
include hd

/-- HOST's step runs the first event of its program's first line (R99). -/
theorem step_host {line e : Instr} {more rest : List Instr} (hs : s.env.schedule = .host :: sched)
    (hp : s.env.program = line :: rest) (hl : hostEvents line = e :: more) :
    step s = exec e { s with env := { s.env with schedule := sched, program := more ++ rest } } := by
  have hturn := State.turn_host (State.agent_cons hs)
  rw [State.takeTurn_cons hs] at hturn
  exact step_of_turn_event (hturn.trans (State.hostTurn_event hp hl (State.admits_of_resetDone hd e)))

/-- PSGW's step runs the event its turn comes to once the turn is taken. -/
theorem step_psgw {i : Instr} {t : State} (hs : s.env.schedule = .psgw :: sched)
    (ht : State.psgwTurn { s with env := { s.env with schedule := sched } } = .event i t) : step s = exec i t := by
  have hturn := State.turn_psgw hd (State.agent_cons hs)
  rw [State.takeTurn_cons hs] at hturn
  exact step_of_turn_event (hturn.trans ht)

/-- VIDW's step runs the event its turn comes to once the turn is taken. -/
theorem step_vidw {i : Instr} {t : State} (hs : s.env.schedule = .vidw :: sched)
    (ht : State.vidwTurn { s with env := { s.env with schedule := sched } } = .event i t) : step s = exec i t := by
  have hturn := State.turn_vidw hd (State.agent_cons hs)
  rw [State.takeTurn_cons hs] at hturn
  exact step_of_turn_event (hturn.trans ht)

end

/-- Settles O51: the agent the schedule names has the turn, and its event is the one its condition enables. -/
theorem stepRunsChosenEvent : Obligations.StepRunsChosenEvent := by
  intro s a sched hd hs
  refine ⟨?host, ?wake, ?step, ?sleep, ?txstart, ?txpart, ?txend⟩
  case host =>
    rintro line e more rest rfl hp hl
    exact step_host hd hs hp hl
  case wake =>
    rintro rfl hw hp
    exact step_psgw hd hs (State.psgwTurn_wake hw hp)
  case step =>
    rintro rfl hw hc
    exact step_psgw hd hs (State.psgwTurn_step hw hc)
  case sleep =>
    rintro rfl hw hc
    exact step_psgw hd hs (State.psgwTurn_sleep hw hc)
  case txstart =>
    rintro rfl ha hslot
    exact step_vidw hd hs (State.vidwTurn_txstart ha hslot)
  case txpart =>
    rintro rfl ha hp
    exact step_vidw hd hs (State.vidwTurn_txpart ha hp)
  case txend =>
    rintro rfl ha hp
    exact step_vidw hd hs (State.vidwTurn_txend ha hp)

end Sys2Proof.Machine

namespace Sys2Proof.Machine

/-! ## The HOST ports of the PSG engine -/

/-- WR always completes, with the effect of the shared write (R110, R111). -/
theorem exec_wr (b : Byte) (s : State) : exec (.wr b) s = .next { s with psg := s.psg.write b } := rfl

/-- ADV always completes, with one add to the credit (R112). -/
theorem exec_adv (c : Byte) (s : State) : exec (.adv c) s = .next { s with psg := s.psg.addCredit c.toNat } := rfl

/-- SYNC always completes, with `sync_pending` set (R114). -/
theorem exec_sync (s : State) : exec .sync s = .next { s with psg := s.psg.setSync true } := rfl

/-- Settles O16: with room in the queue the shared write is a push. -/
theorem wrAppendsToQueue : Obligations.WrAppendsToQueue := by
  intro s b hroom
  rw [exec_wr, s.psg.write_room b hroom, Psg.qPush]

/-- Settles O17: with a full queue the shared write is the drop event. -/
theorem wrDropsNewestWhenFull : Obligations.WrDropsNewestWhenFull := by
  intro s b hfull
  rw [exec_wr, s.psg.write_full b hfull, Psg.dropWrite]

/-- Settles O18: ADV is the credit's add and SYNC the flag's set, in every state. -/
theorem advAndSyncComplete : Obligations.AdvAndSyncComplete := by
  refine ⟨fun s c => ?adv, fun s => ?sync⟩
  case adv => rw [exec_adv, Psg.addCredit]
  case sync => rw [exec_sync, Psg.setSync]

end Sys2Proof.Machine

namespace Sys2Proof.Machine

/-! ## The head command of STEP -/

/-- Under a tone latch of channels 0 to 2 a DATA byte is DATA.TONE (R96). -/
theorem resolveData_tone {ch : Fin 4} {c : Fin 3} (hc : ch.val = c.val) (d : BitVec 6) :
    resolveData ch .tone d = .dataTone d := by
  obtain rfl : ch = c.castLE (by decide) := Fin.ext hc
  match c with
  | 0 => rfl
  | 1 => rfl
  | 2 => rfl

/-- DATA.TONE under its latch is the period write (R184). -/
theorem exec_dataTone_selected {s : State} {c : Fin 3} (ht : s.psg.latchType = .tone)
    (hc : s.psg.latchCh.val = c.val) (d : BitVec 6) :
    exec (.dataTone d) s = .next { s with psg := s.psg.dataTone s.cfg c d } := by
  show execDataTone d s = _
  simp [execDataTone, ht, toneChannel_eq_some.2 hc]

/-- DATA.VOL under its latch is the volume write (R185). -/
theorem exec_dataVol_selected {s : State} (ht : s.psg.latchType = .volume) (v : Nibble) :
    exec (.dataVol v) s = .next { s with psg := s.psg.setVol s.psg.latchCh v } := by
  show execDataVol v s = _
  simp [execDataVol, ht]

/-- DATA.NOISE under its latch is the noise write (R186). -/
theorem exec_dataNoise_selected {s : State} (ht : s.psg.latchType = .tone) (hc : s.psg.latchCh = 3)
    (m : BitVec 1) (r : BitVec 2) :
    exec (.dataNoise m r) s = .next { s with psg := s.psg.noiseWrite m r } := by
  show execDataNoise m r s = _
  simp [execDataNoise, ht, toneChannel_eq_none.2 hc]

/-- The sub-form the latch selects does what DATA does (R96, R183). -/
theorem exec_resolveData (s : State) (d : BitVec 6) :
    exec (resolveData s.psg.latchCh s.psg.latchType d) s = exec (.data d) s := by
  show _ = Host.Outcome.next { s with psg := s.psg.dataWrite s.cfg d }
  rcases s.psg.dataWrite_cases s.cfg d with ⟨ht, hw⟩ | ⟨c, ht, hc, hw⟩ | ⟨ht, hc, hw⟩
  · rw [hw, ht]
    exact exec_dataVol_selected ht _
  · rw [hw, ht, resolveData_tone hc]
    exact exec_dataTone_selected ht hc d
  · rw [hw, ht, hc]
    exact exec_dataNoise_selected ht hc _ _

/-- A command byte does the same whether or not its DATA sub-form is resolved by the latch first (R96). -/
theorem exec_decodeAt (s : State) (b : Byte) :
    exec (decodeAt s.psg.latchCh s.psg.latchType b) s = exec (decodeByte b) s := by
  by_cases hl : fieldLatch b = true
  · rw [decodeAt, if_pos hl]
  · have hdata : decodeByte b = .data (fieldD6 b) := by rw [decodeByte, decodeCommand, if_neg hl, Command.toInstr]
    rw [decodeAt, if_neg hl, exec_resolveData, hdata]

/-- Item 1 of STEP with a byte at the head of the queue: the byte leaves and its command runs (R123). -/
theorem Psg.dequeue_cons (cfg : Config) (p : Psg) {b : Byte} {rest : List Byte} (h : p.q = b :: rest) :
    p.dequeue cfg = ({ p with q := rest } : Psg).runCommand cfg (decodeCommand b) := by
  simp [Psg.dequeue, Psg.qDrop, h]

/-- Settles O20: item 1 of STEP is the execution of the head byte, and a command leaves the queue and the credit. -/
theorem stepExecutesHeadCommand : Obligations.StepExecutesHeadCommand := by
  intro s hw hc hp
  refine ⟨fun hq => ?empty, fun b rest hq => ?head⟩
  case empty => rw [exec_step_enabled hw hc hp, s.psg.dequeue_empty s.cfg hq]
  case head =>
    have hcmd : exec (decodeByte b) { s with psg := { s.psg with q := rest } } =
        .next { s with psg := s.psg.dequeue s.cfg } := by
      rw [exec_decodeByte, Psg.dequeue_cons s.cfg s.psg hq]
    refine ⟨{ s with psg := s.psg.dequeue s.cfg }, hcmd, ?resolved, exec_step_enabled hw hc hp, ?queue, ?credit⟩
    case resolved => exact (exec_decodeAt { s with psg := { s.psg with q := rest } } b).trans hcmd
    case queue => rw [State.afterCommand_q, Psg.dequeue_q, hq, List.tail_cons]
    case credit => rw [State.afterCommand_credit, Psg.dequeue_credit, Nat.sub_add_cancel hc]

/-! ## What each event does to the credit -/

/-- DATA.TONE answers a next state only under its latch (R184). -/
theorem exec_dataTone_next {s t : State} {d : BitVec 6} (h : exec (.dataTone d) s = .next t) :
    ∃ c : Fin 3, s.psg.latchType = .tone ∧ s.psg.latchCh.val = c.val ∧
      t = { s with psg := s.psg.dataTone s.cfg c d } := by
  change execDataTone d s = _ at h
  unfold execDataTone at h
  split at h
  next c ht hc =>
    cases h
    exact ⟨c, ht, toneChannel_eq_some.1 hc, rfl⟩
  next => cases h
  next => cases h

/-- DATA.VOL answers a next state only under its latch (R185). -/
theorem exec_dataVol_next {s t : State} {v : Nibble} (h : exec (.dataVol v) s = .next t) :
    s.psg.latchType = .volume ∧ t = { s with psg := s.psg.setVol s.psg.latchCh v } := by
  change execDataVol v s = _ at h
  unfold execDataVol at h
  split at h
  next ht =>
    cases h
    exact ⟨ht, rfl⟩
  next => cases h

/-- DATA.NOISE answers a next state only under its latch (R186). -/
theorem exec_dataNoise_next {s t : State} {m : BitVec 1} {r : BitVec 2} (h : exec (.dataNoise m r) s = .next t) :
    s.psg.latchType = .tone ∧ s.psg.latchCh = 3 ∧ t = { s with psg := s.psg.noiseWrite m r } := by
  change execDataNoise m r s = _ at h
  unfold execDataNoise at h
  split at h
  next ht hc =>
    cases h
    exact ⟨ht, toneChannel_eq_none.1 hc, rfl⟩
  next => cases h
  next => cases h

@[simp] theorem Psg.dataWrite_credit (cfg : Config) (p : Psg) (d : BitVec 6) :
    (p.dataWrite cfg d).credit = p.credit :=
  (congrArg Psg.credit (p.runCommand_frame cfg (.data d)).1 :)

@[simp] theorem Psg.write_credit (p : Psg) (b : Byte) : (p.write b).credit = p.credit :=
  (congrArg Psg.credit (p.write_frame b).1 :)

@[simp] theorem State.write_credit (s : State) (b : Byte) : (s.write b).psg.credit = s.psg.credit :=
  s.psg.write_credit b

/-- One event after RESET, by the event (R48 (b), R126, R127): ADV adds its operand, STEP takes 16, every other event
leaves the credit, and none undoes RESET. -/
theorem exec_conserves_credit {i : Instr} {s t : State} (hd : s.resetDone = true) (h : exec i s = .next t) :
    t.resetDone = true ∧ t.psg.credit + 16 * stepCount [i] = s.psg.credit + advTotal [i] := by
  cases i
  case adv | sync | tick | sample | tx | ltone0 | ltone1 | ltone2 | lnoise | lvol0 | lvol1 | lvol2 | lvol3 =>
    cases h
    exact ⟨hd, rfl⟩
  case step =>
    obtain ⟨-, hc, -, rfl⟩ := exec_step_next h
    refine ⟨hd, ?_⟩
    rw [State.afterCommand_credit, Psg.dequeue_credit]
    exact Nat.sub_add_cancel hc
  case data d =>
    cases h
    exact ⟨hd, s.psg.dataWrite_credit s.cfg d⟩
  case dataTone d =>
    obtain ⟨c, -, -, rfl⟩ := exec_dataTone_next h
    exact ⟨hd, rfl⟩
  case dataVol v =>
    obtain ⟨-, rfl⟩ := exec_dataVol_next h
    exact ⟨hd, rfl⟩
  case dataNoise m r =>
    obtain ⟨-, -, rfl⟩ := exec_dataNoise_next h
    exact ⟨hd, rfl⟩
  case wr | vol | tone | silence | wrs | endframe =>
    cases h
    exact ⟨hd, by simp [State.sync, State.tick, stepCount, advTotal]⟩
  case pixwr part o v =>
    obtain ⟨-, -, rfl⟩ := exec_pixwr_next h
    exact ⟨hd, rfl⟩
  case wake =>
    obtain ⟨-, -, rfl⟩ := exec_wake_next h
    exact ⟨hd, rfl⟩
  case sleep =>
    obtain ⟨-, -, rfl⟩ := exec_sleep_next h
    exact ⟨hd, rfl⟩
  case txstart =>
    obtain ⟨b, -, -, rfl⟩ := exec_txstart_next h
    exact ⟨hd, rfl⟩
  case txpart =>
    obtain ⟨-, -, rfl⟩ := exec_txpart_next h
    exact ⟨hd, rfl⟩
  case txend =>
    obtain ⟨-, -, rfl⟩ := exec_txend_next h
    exact ⟨hd, rfl⟩
  case reset c =>
    obtain ⟨hn, -, -⟩ := exec_reset_next h
    rw [hd] at hn
    cases hn

/-! ## Conservation along a sequence -/

theorem stepCount_cons (i : Instr) (is : List Instr) : stepCount (i :: is) = stepCount [i] + stepCount is :=
  List.count_append (l₁ := [i])

theorem advTotal_cons (i : Instr) (is : List Instr) : advTotal (i :: is) = advTotal [i] + advTotal is := by
  cases i <;> simp [advTotal]

/-- Settles O32, by induction on the events: the balance of the first event and the balance of the rest add up. -/
theorem creditIsConserved : Obligations.CreditIsConserved := by
  intro is
  induction is with
  | nil =>
    intro s t _ h
    cases h
    rfl
  | cons i is ih =>
    intro s t hd h
    obtain ⟨u, hu, hrun⟩ := runEvents_cons_next h
    obtain ⟨hdu, hfirst⟩ := exec_conserves_credit hd hu
    have hrest := ih u t hdu hrun
    rw [stepCount_cons, advTotal_cons]
    omega

end Sys2Proof.Machine

namespace Sys2Proof.Machine

/-! ## DATA under a volume latch and under the noise latch -/

/-- DATA always completes, with the write to the register the latch selects (R183). -/
theorem exec_data (d : BitVec 6) (s : State) :
    exec (.data d) s = .next { s with psg := s.psg.dataWrite s.cfg d } := rfl

/-- The noise write's registers, and by omission what it leaves (R181, R154). -/
theorem Psg.noiseWrite_eq (p : Psg) (m : BitVec 1) (r : BitVec 2) :
    p.noiseWrite m r = { p with lfsr := 0x8000, nrate := r, nmode := m } := rfl

/-- The mode of a DATA operand is its bit 2 (R93, R186). -/
theorem nibbleMode_lowNibble (d : BitVec 6) : nibbleMode (lowNibble d) = d.extractLsb' 2 1 :=
  BitVec.extractLsb'_extractLsb'_of_le (by decide)

/-- The rate of a DATA operand is its bits 1 and 0 (R93, R186). -/
theorem nibbleRate_lowNibble (d : BitVec 6) : nibbleRate (lowNibble d) = d.extractLsb' 0 2 :=
  BitVec.extractLsb'_extractLsb'_of_le (by decide)

/-- Settles O6: under its latch each row is the write of the one register selected, and DATA takes that register's
bits of the operand. -/
theorem dataVolAndNoiseForms : Obligations.DataVolAndNoiseForms := by
  refine ⟨fun s d ht => ?dataVolume, fun s v ht => ?volume, fun s d ht hc => ?dataNoise, fun s m r ht hc => ?noise⟩
  case dataVolume => rw [exec_data, s.psg.dataWrite_volume s.cfg d ht, Psg.setVol, lowNibble]
  case volume => rw [exec_dataVol_selected ht, Psg.setVol]
  case dataNoise =>
    rw [exec_data, s.psg.dataWrite_noise s.cfg d ht hc, Psg.noiseWrite_eq, nibbleMode_lowNibble, nibbleRate_lowNibble]
  case noise => rw [exec_dataNoise_selected ht hc, Psg.noiseWrite_eq]

end Sys2Proof.Machine

namespace Sys2Proof.Machine

/-! ## Frame hand-over and the ends of a transmission -/

/-- TICK always completes, with the effect of the shared tick on the video buffer (R202, R203). -/
theorem exec_tick (s : State) : exec .tick s = .next { s with video := s.video.tick } := rfl

/-- TXSTART where it is enabled: the slot's buffer is taken (R204). -/
theorem exec_txstart_enabled {s : State} {b : Fin 2} (ha : s.video.txActive = false) (hs : s.video.slot = some b) :
    exec .txstart s = .next { s with video := s.video.takeSlot b } := by
  show execTxstart s = _
  simp only [execTxstart, ha, hs]

/-- TXEND is enabled in a transmission with all parts sent (R206). -/
theorem Video.endEnabled_iff {c : Config} {v : Video} :
    v.endEnabled c = true ↔ v.txActive = true ∧ v.txPart = c.partCount := by
  simp only [Video.endEnabled, Bool.and_eq_true, decide_eq_true_eq]

/-- TXEND where it is enabled: the transmission ends (R206). -/
theorem exec_txend_enabled {s : State} (ha : s.video.txActive = true) (hp : s.video.txPart = s.cfg.partCount) :
    exec .txend s = .next { s with video := s.video.endTx } :=
  if_pos (Video.endEnabled_iff.2 ⟨ha, hp⟩)

/-- Settles O39: with no frame in flight the shared tick is the hand-over. -/
theorem tickHandsFrameOver : Obligations.TickHandsFrameOver := by
  intro s hs ha
  rw [exec_tick, s.video.tick_accepted hs ha, Video.handOver, otherBuf]

/-- Settles O41: TXSTART takes the slot's buffer and TXEND clears `tx_active`. -/
theorem txstartAndTxendComplete : Obligations.TxstartAndTxendComplete := by
  refine ⟨fun s b ha hs => ?start, fun s ha hp => ?finish⟩
  case start => rw [exec_txstart_enabled ha hs, Video.takeSlot]
  case finish => rw [exec_txend_enabled ha hp, Video.endTx]

end Sys2Proof.Machine

namespace Sys2Proof.Machine

/-! ## Decoding and encoding command bytes -/

/-- Reading back a command's byte gives the command (R90 to R95). -/
theorem decodeCommand_encodeCommand (k : Command) : decodeCommand (encodeCommand k) = k := by
  cases k with
  | ltone c n => revert c n; decide
  | lvol c v => revert c v; decide
  | lnoise m r => revert m r; decide
  | data d => revert d; decide

theorem decodeByte_encodeCommand (k : Command) : decodeByte (encodeCommand k) = k.toInstr := by
  rw [decodeByte, decodeCommand_encodeCommand]

/-- A command's instruction is written as the command's one byte (R95). -/
theorem encode_toInstr (k : Command) : encode k.toInstr = [encodeCommand k] := by
  cases k with
  | ltone c n => match c with | 0 => rfl | 1 => rfl | 2 => rfl
  | lvol c v => match c with | 0 => rfl | 1 => rfl | 2 => rfl | 3 => rfl
  | lnoise m r => rfl
  | data d => rfl

/-- On the command queue the first byte of a command's encoding is the whole instruction (R90). -/
theorem decodeOn_command_encodeCommand (k : Command) (rest : List Byte) :
    decodeOn .command ([encodeCommand k] ++ rest) = .ok (k.toInstr, rest) := by
  rw [List.singleton_append, decodeOn, decodeByte_encodeCommand]

/-- Settles O11: the nine commands by the round trip of a command byte; on every other port the bytes are the
operands themselves; the other rows have no port. -/
theorem decodeOfEncode : Obligations.DecodeOfEncode := by
  intro i p rest hport
  cases i
  case ltone0 n => cases hport; exact decodeOn_command_encodeCommand (.ltone 0 n) rest
  case ltone1 n => cases hport; exact decodeOn_command_encodeCommand (.ltone 1 n) rest
  case ltone2 n => cases hport; exact decodeOn_command_encodeCommand (.ltone 2 n) rest
  case lnoise m r => cases hport; exact decodeOn_command_encodeCommand (.lnoise m r) rest
  case lvol0 v => cases hport; exact decodeOn_command_encodeCommand (.lvol 0 v) rest
  case lvol1 v => cases hport; exact decodeOn_command_encodeCommand (.lvol 1 v) rest
  case lvol2 v => cases hport; exact decodeOn_command_encodeCommand (.lvol 2 v) rest
  case lvol3 v => cases hport; exact decodeOn_command_encodeCommand (.lvol 3 v) rest
  case data d => cases hport; exact decodeOn_command_encodeCommand (.data d) rest
  case wr | adv | sync | tick | sample => cases hport; rfl
  all_goals cases hport

/-! ## Bits of a byte that no field reads -/

/-- Writing back the command a byte decodes to clears the ignored bits (R97, R99): a finite table of 256 bytes. -/
theorem encodeCommand_decodeCommand (b : Byte) :
    encodeCommand (decodeCommand b) =
      if b[7] then (if b.extractLsb' 4 4 = 0xE#4 then b &&& 0xF7#8 else b) else b &&& 0xBF#8 := by
  revert b
  decide

/-- Settles O13: an instruction decoded from a byte is written as its command's byte. -/
theorem encodeOfDecodeClearsIgnoredBits : Obligations.EncodeOfDecodeClearsIgnoredBits := by
  intro b
  rw [decodeByte, encode_toInstr, encodeCommand_decodeCommand]

/-- Settles O15: the five words have closed decodings. -/
theorem commandWordsDecode : Obligations.CommandWordsDecode := ⟨rfl, rfl, rfl, rfl, rfl⟩

/-- A DATA byte has bit 7 clear (R92). -/
theorem fieldLatch_formatD (d : BitVec 6) : fieldLatch (formatD d) = false := by
  revert d
  decide

/-- The operand of a DATA byte comes back whole (R92). -/
theorem fieldD6_formatD (d : BitVec 6) : fieldD6 (formatD d) = d := by
  revert d
  decide

/-- A DATA byte reads as the sub-form the latch selects (R96). -/
theorem decodeAt_formatD (ch : Fin 4) (ty : RegType) (d : BitVec 6) :
    decodeAt ch ty (formatD d) = resolveData ch ty d := by
  rw [decodeAt, fieldLatch_formatD, fieldD6_formatD]
  exact if_neg Bool.false_ne_true

/-- The low nibble of a nibble widened to a DATA operand (R94). -/
theorem lowNibble_widened (v : Nibble) : lowNibble (0#2 ++ v) = v := by
  revert v
  decide

theorem nibbleMode_noiseNibble (m : BitVec 1) (r : BitVec 2) : nibbleMode (noiseNibble m r) = m := by
  revert m r
  decide

theorem nibbleRate_noiseNibble (m : BitVec 1) (r : BitVec 2) : nibbleRate (noiseNibble m r) = r := by
  revert m r
  decide

/-- A latch channel other than 3 is a tone channel (R24). -/
theorem exists_toneChannel {ch : Fin 4} (h : ch ≠ 3) : ∃ c : Fin 3, ch.val = c.val :=
  ⟨⟨ch.val, by omega⟩, rfl⟩

/-- Settles O12: each sub-form is a DATA byte whose operand holds its fields, resolved by the latch. -/
theorem dataFormsDecodeUnderLatch : Obligations.DataFormsDecodeUnderLatch := by
  refine ⟨fun ch d hch => ?tone, fun ch v => ?volume, fun m r => ?noise, fun ch ty b hb => ?latch⟩
  case tone =>
    obtain ⟨c, hc⟩ := exists_toneChannel hch
    rw [encode, List.map_singleton, decodeAt_formatD, resolveData_tone hc]
  case volume => rw [encode, List.map_singleton, decodeAt_formatD, resolveData, lowNibble_widened]
  case noise =>
    rw [encode, List.map_singleton, decodeAt_formatD, resolveData, lowNibble_widened, nibbleMode_noiseNibble,
      nibbleRate_noiseNibble]
  case latch => exact if_pos hb

/-- No field of a DATA byte reads bit 6 (R92). -/
theorem decodeCommand_flip_bit6 {b : Byte} (h : b[7] = false) : decodeCommand (b ^^^ 0x40#8) = decodeCommand b := by
  revert b
  decide

/-- No field of an LNOISE byte reads bit 3 (R93). -/
theorem decodeCommand_flip_bit3 {b : Byte} (h : b.extractLsb' 4 4 = 0xE#4) :
    decodeCommand (b ^^^ 0x08#8) = decodeCommand b := by
  revert b
  decide

/-- A volume reads the low nibble of a DATA operand only (R185). -/
theorem Psg.dataWrite_eq_of_lowNibble_volume (cfg : Config) (p : Psg) {d e : BitVec 6} (ht : p.latchType = .volume)
    (h : lowNibble d = lowNibble e) : p.dataWrite cfg d = p.dataWrite cfg e := by
  rw [p.dataWrite_volume cfg d ht, p.dataWrite_volume cfg e ht, h]

/-- The noise control reads bits 2 to 0 of a DATA operand only (R186). -/
theorem Psg.dataWrite_eq_of_low3_noise (cfg : Config) (p : Psg) {d e : BitVec 6} (ht : p.latchType = .tone)
    (hc : p.latchCh = 3) (h : d.extractLsb' 0 3 = e.extractLsb' 0 3) : p.dataWrite cfg d = p.dataWrite cfg e := by
  have hmode : ∀ x : BitVec 6, x.extractLsb' 2 1 = (x.extractLsb' 0 3).extractLsb' 2 1 :=
    fun x => (BitVec.extractLsb'_extractLsb'_of_le (by decide)).symm
  have hrate : ∀ x : BitVec 6, x.extractLsb' 0 2 = (x.extractLsb' 0 3).extractLsb' 0 2 :=
    fun x => (BitVec.extractLsb'_extractLsb'_of_le (by decide)).symm
  rw [p.dataWrite_noise cfg d ht hc, p.dataWrite_noise cfg e ht hc, nibbleMode_lowNibble, nibbleMode_lowNibble,
    nibbleRate_lowNibble, nibbleRate_lowNibble, hmode d, hrate d, h, ← hmode e, ← hrate e]

theorem periodData_width6 {cfg : Config} (h : cfg.toneDataWidth = 6) (p : BitVec 10) (d : BitVec 6) :
    periodData cfg p d = periodData6 p d :=
  if_pos h

theorem periodData_width4 {cfg : Config} (h : cfg.toneDataWidth = 4) (p : BitVec 10) (d : BitVec 6) :
    periodData cfg p d = periodData4 p d := by
  simp [periodData, h]

/-- With width 4 a tone period reads the low nibble of a DATA operand only (R184). -/
theorem Psg.dataWrite_eq_of_lowNibble_tone (cfg : Config) (p : Psg) {d e : BitVec 6} (ht : p.latchType = .tone)
    (hc : p.latchCh ≠ 3) (hwidth : cfg.toneDataWidth = 4) (h : lowNibble d = lowNibble e) :
    p.dataWrite cfg d = p.dataWrite cfg e := by
  obtain ⟨c, hc⟩ := exists_toneChannel hc
  rw [lowNibble, lowNibble] at h
  simp only [p.dataWrite_tone cfg _ c ht hc, Psg.dataTone, periodData_width4 hwidth, periodData4, h]

/-- Settles O14: the decoder's fields do not cover the bits, and no write reads them. -/
theorem ignoredDataBitsHaveNoEffect : Obligations.IgnoredDataBitsHaveNoEffect := by
  refine ⟨fun b hb => ?bit6, fun b hb => ?bit3, fun s d e => ⟨fun ht h => ?volume, fun ht hc h => ?noise,
    fun ht hc hw h => ?tone⟩⟩
  case bit6 => rw [decodeByte, decodeCommand_flip_bit6 hb, decodeByte]
  case bit3 => rw [decodeByte, decodeCommand_flip_bit3 hb, decodeByte]
  case volume => rw [exec_data, exec_data, s.psg.dataWrite_eq_of_lowNibble_volume s.cfg ht h]
  case noise => rw [exec_data, exec_data, s.psg.dataWrite_eq_of_low3_noise s.cfg ht hc h]
  case tone => rw [exec_data, exec_data, s.psg.dataWrite_eq_of_lowNibble_tone s.cfg ht hc hw h]

end Sys2Proof.Machine

namespace Sys2Proof

/-! ## Geometry -/

/-- The parts of a legal configuration divide the frame exactly (R197). -/
theorem Config.partSize_mul_partCount {c : Config} (h : c.Legal) : c.partSize * c.partCount = c.width * c.height * 2 := by
  obtain ⟨-, -, -, -, -, -, -, hexact⟩ := h
  exact Nat.div_mul_cancel (Nat.dvd_of_mod_eq_zero hexact)

/-- A part of a legal configuration has a payload byte (R197). -/
theorem Config.partSize_pos {c : Config} (h : c.Legal) : 1 ≤ c.partSize := by
  have hexact := Config.partSize_mul_partCount h
  obtain ⟨-, -, -, -, hwidth, hheight, -, -⟩ := h
  have hframe : 0 < c.width * c.height * 2 := by positivity
  rw [← hexact] at hframe
  exact Nat.pos_of_mul_pos_right hframe

/-- A part of a buffer is one of the `2 × N_PARTS` parts of the memories (R60). -/
theorem Config.partIndex_lt (c : Config) (b : Fin 2) {i : Nat} (hi : i < c.nParts) :
    b.val * c.nParts + i < 2 * c.nParts :=
  calc b.val * c.nParts + i < b.val * c.nParts + c.nParts := Nat.add_lt_add_left hi _
    _ = (b.val + 1) * c.nParts := (Nat.succ_mul _ _).symm
    _ ≤ 2 * c.nParts := Nat.mul_le_mul_right _ b.isLt

/-- A cell lies inside the space V (R60). -/
theorem Config.cellAddr_lt (c : Config) (b : Fin 2) {i r : Nat} (hi : i < c.nParts) (hr : r ≤ c.partSize) :
    c.cellAddr b i r < c.cellCount := by
  unfold Config.cellAddr Config.cellCount
  calc (b.val * c.nParts + i) * (c.partSize + 1) + r
      < (b.val * c.nParts + i) * (c.partSize + 1) + (c.partSize + 1) := by omega
    _ = (b.val * c.nParts + i + 1) * (c.partSize + 1) := (Nat.succ_mul _ _).symm
    _ ≤ 2 * c.nParts * (c.partSize + 1) := Nat.mul_le_mul_right _ (c.partIndex_lt b hi)

/-- The number of a part among all parts determines the buffer and the part (R60). -/
theorem Config.partIndex_injective (c : Config) {b d : Fin 2} {i j : Nat} (hi : i < c.nParts) (hj : j < c.nParts)
    (h : b.val * c.nParts + i = d.val * c.nParts + j) : b = d ∧ i = j := by
  have hsplit : ∀ (e : Fin 2) (k : Nat), k < c.nParts →
      (e.val * c.nParts + k) / c.nParts = e.val ∧ (e.val * c.nParts + k) % c.nParts = k := fun e k hk => by
    rw [Nat.mul_comm, Nat.mul_add_div (by omega), Nat.div_eq_of_lt hk, Nat.mul_add_mod, Nat.mod_eq_of_lt hk]
    exact ⟨rfl, rfl⟩
  have hb := hsplit b i hi
  rw [h] at hb
  have hd := hsplit d j hj
  exact ⟨Fin.ext (hb.1.symm.trans hd.1), hb.2.symm.trans hd.2⟩

/-- Different cells have different addresses (R41). -/
theorem Config.cellAddr_injective (c : Config) {b d : Fin 2} {i j r q : Nat} (hi : i < c.nParts) (hj : j < c.nParts)
    (hr : r ≤ c.partSize) (hq : q ≤ c.partSize) (h : c.cellAddr b i r = c.cellAddr d j q) : b = d ∧ i = j ∧ r = q := by
  have hpart := c.cellAddr_div_mod b i hr
  rw [h, (c.cellAddr_div_mod d j hq).1, (c.cellAddr_div_mod d j hq).2] at hpart
  obtain ⟨hb, hij⟩ := c.partIndex_injective hi hj hpart.1.symm
  exact ⟨hb, hij, hpart.2.symm⟩

/-- Settles O35: exact division, and the address as a mixed-radix number of buffer, part and offset. -/
theorem geometryIsExact : Obligations.GeometryIsExact := fun c hlegal =>
  ⟨Config.partSize_mul_partCount hlegal, Config.partSize_pos hlegal, rfl, fun b _ _ _ _ _ hi hj hr hq =>
    ⟨c.cellAddr_lt b hi hr, c.cellAddr_injective hi hj hr hq⟩⟩

/-! ## Rows -/

/-- With whole scanlines a part is its lines (R198). -/
theorem Config.linesPerPart_mul {c : Config} (h : c.partSize % (c.width * 2) = 0) :
    c.linesPerPart * (c.width * 2) = c.partSize :=
  Nat.div_mul_cancel (Nat.dvd_of_mod_eq_zero h)

/-- With whole scanlines the parts hold the frame's rows exactly (R198). -/
theorem Config.linesPerPart_mul_partCount {c : Config} (hlegal : c.Legal) (h : c.partSize % (c.width * 2) = 0) :
    c.linesPerPart * c.partCount = c.height := by
  have hexact := Config.partSize_mul_partCount hlegal
  obtain ⟨-, -, -, -, hwidth, -⟩ := hlegal
  rw [← Config.linesPerPart_mul h] at hexact
  refine Nat.eq_of_mul_eq_mul_right (show 0 < c.width * 2 by omega) ?_
  calc c.linesPerPart * c.partCount * (c.width * 2) = c.linesPerPart * (c.width * 2) * c.partCount := by ring
    _ = c.width * c.height * 2 := hexact
    _ = c.height * (c.width * 2) := by ring

/-- Settles O36: row `y` is line `y mod lines_per_part` of part `y / lines_per_part`. -/
theorem rowLiesInOnePart : Obligations.RowLiesInOnePart := by
  intro c y hlegal hwhole hy
  rw [← Config.linesPerPart_mul_partCount hlegal hwhole] at hy
  have hpart := Config.linesPerPart_mul hwhole
  have hlines : 0 < c.linesPerPart := Nat.pos_of_mul_pos_right (Nat.zero_lt_of_lt hy)
  refine ⟨Nat.div_lt_of_lt_mul hy, ?inside, ?place⟩
  case inside =>
    calc y % c.linesPerPart * (c.width * 2) + c.width * 2 = (y % c.linesPerPart + 1) * (c.width * 2) :=
          (Nat.succ_mul _ _).symm
      _ ≤ c.linesPerPart * (c.width * 2) := Nat.mul_le_mul_right _ (Nat.mod_lt y hlines)
      _ = c.partSize := hpart
  case place =>
    calc y / c.linesPerPart * c.partSize + y % c.linesPerPart * (c.width * 2)
        = (c.linesPerPart * (y / c.linesPerPart) + y % c.linesPerPart) * (c.width * 2) := by rw [← hpart]; ring
      _ = y * (c.width * 2) := by rw [Nat.div_add_mod]

end Sys2Proof

namespace Sys2Proof.Machine

/-! ## The LFSR loses no state -/

/-- A clocked value determines the value before: bits 15 to 1 by the shift, bit 0 by the feedback, which in white mode
is mixed with bit 3 only (R149, R151). -/
theorem lfsrShift_feedback_injective {c : Config} (htaps : c.lfsrTaps = 0x0009#16) (m : BitVec 1) {k l : BitVec 16}
    (h : lfsrShift (feedback c m k) k = lfsrShift (feedback c m l) l) : k = l := by
  have hhigh : ∀ j < 15, k.getLsbD (j + 1) = l.getLsbD (j + 1) := fun j hj => by
    rw [← lfsrShift_low (feedback c m k) k hj, h, lfsrShift_low _ _ hj]
  have hfeedback : feedback c m k = feedback c m l := by
    rw [← lfsrShift_top (feedback c m k) k, h, lfsrShift_top]
  have hlow : k[0] = l[0] := by
    rcases BitVec.eq_zero_or_eq_one m with hm | hm
    · rwa [feedback_periodic c k hm, feedback_periodic c l hm] at hfeedback
    · have hthree : k[3] = l[3] := hhigh 2 (by decide)
      rw [feedback_white c k hm htaps, feedback_white c l hm htaps, hthree] at hfeedback
      exact Bool.xor_left_inj.1 hfeedback
  refine BitVec.eq_of_getLsbD_eq fun i hi => ?_
  cases i with
  | zero => exact hlow
  | succ j => exact hhigh j (by omega)

/-- The value 0 clocks to itself (R151). -/
theorem lfsrShift_feedback_zero (c : Config) (m : BitVec 1) : lfsrShift (feedback c m 0) 0 = 0 := by
  have hfeedback : feedback c m 0 = false := by
    have hmasked : (0 : BitVec 16) &&& c.lfsrTaps = 0 := BitVec.zero_and
    rw [feedback, hmasked]
    split <;> rfl
  rw [hfeedback]
  rfl

/-- A live value clocks to a live value (R151). -/
theorem lfsrShift_feedback_ne_zero {c : Config} (htaps : c.lfsrTaps = 0x0009#16) (m : BitVec 1) {l : BitVec 16}
    (h : l ≠ 0) : lfsrShift (feedback c m l) l ≠ 0 := fun hzero =>
  h (lfsrShift_feedback_injective htaps m (hzero.trans (lfsrShift_feedback_zero c m).symm))

/-- Settles O27: the clock is injective, and 0 is a fixed point. -/
theorem lfsrClockIsInjective : Obligations.LfsrClockIsInjective := by
  intro c p q htaps hmode
  refine ⟨fun h => ?injective, lfsrShift_feedback_ne_zero htaps p.nmode⟩
  case injective =>
    rw [Psg.lfsrClock_lfsr, Psg.lfsrClock_lfsr, ← hmode] at h
    exact lfsrShift_feedback_injective htaps p.nmode h

/-! ## The PSG invariant under each operation -/

/-- The PSG invariant speaks of the queue, the accumulator, the counters and the LFSR (R48). -/
theorem Psg.Inv.of_eq {c : Config} {p q : Psg} (h : p.Inv c) (hq : q.q = p.q) (hacc : q.cbAcc = p.cbAcc)
    (htone : q.tcnt = p.tcnt) (hnoise : q.ncnt = p.ncnt) (hlfsr : q.lfsr = p.lfsr) : q.Inv c where
  queueBound := hq ▸ h.queueBound
  accBound := hacc ▸ h.accBound
  toneBound := htone ▸ h.toneBound
  noiseBound := hnoise ▸ h.noiseBound
  lfsrLive := hlfsr ▸ h.lfsrLive

/-- WR keeps the queue within its bound (R110, R111). -/
theorem Psg.write_q_length_le {p : Psg} (b : Byte) (h : p.q.length ≤ 1024) : (p.write b).q.length ≤ 1024 := by
  rcases Nat.lt_or_eq_of_le h with hroom | hfull
  · rw [p.write_room b hroom, Psg.qPush_q, List.length_append, List.length_singleton]
    omega
  · rw [p.write_full b hfull, Psg.dropWrite_q]
    exact h

theorem Psg.Inv.write {c : Config} {p : Psg} (h : p.Inv c) (b : Byte) : (p.write b).Inv c := by
  have hq := Psg.write_q_length_le b h.queueBound
  rw [(p.write_frame b).1]
  exact ⟨hq, h.accBound, h.toneBound, h.noiseBound, h.lfsrLive⟩

/-- A tone generator keeps its counter in 0..16368 (R144): a reload is a scaled period, and only a counter above 16 is
counted down. -/
theorem Psg.toneAdvance_tcnt_bounds {p : Psg} {c : Fin 3} (h : 0 ≤ p.tcnt[c] ∧ p.tcnt[c] ≤ 16368) :
    0 ≤ (p.toneAdvance c).tcnt[c] ∧ (p.toneAdvance c).tcnt[c] ≤ 16368 := by
  have hreload := scaledPeriod_bounds p.period[c]
  have hchannel := congrArg Prod.fst (p.toneAdvance_channel c)
  dsimp only at hchannel
  rw [hchannel]
  split
  · split
    · exact hreload
    · dsimp only
      omega
  · exact h

/-- A noise reload lies in 0..16368 in a legal configuration (R156). -/
theorem noiseReload_bounds {c : Config} (hlegal : c.Legal) (p : Psg) :
    0 ≤ noiseReload c p ∧ noiseReload c p ≤ 16368 := by
  obtain ⟨-, hmult, -⟩ := hlegal
  unfold noiseReload
  split
  next => exact scaledPeriod_bounds _
  next hrate =>
    have hshift : 16 <<< p.nrate.toNat ≤ 64 := by
      generalize p.nrate = r at hrate
      revert r
      decide
    have hproduct : (16 <<< p.nrate.toNat) * c.noiseMult ≤ 64 * 16 :=
      Nat.mul_le_mul hshift (by omega)
    omega

/-- The noise generator keeps its counter in 0..16368 and its LFSR live (R151, R156). -/
theorem Psg.noiseAdvance_bounds {c : Config} {p : Psg} (hlegal : c.Legal) (hcnt : 0 ≤ p.ncnt ∧ p.ncnt ≤ 16368)
    (hlive : p.lfsr ≠ 0) :
    (0 ≤ (p.noiseAdvance c).ncnt ∧ (p.noiseAdvance c).ncnt ≤ 16368) ∧ (p.noiseAdvance c).lfsr ≠ 0 := by
  have hreload := noiseReload_bounds hlegal p
  obtain ⟨-, -, -, htaps, -⟩ := hlegal
  by_cases hcross : p.ncnt - 16 ≤ 0
  · cases hf : p.nff with
    | true =>
      rw [p.noiseAdvance_clears c hcross hf]
      exact ⟨hreload, hlive⟩
    | false =>
      rw [p.noiseAdvance_sets c hcross hf]
      exact ⟨hreload, lfsrShift_feedback_ne_zero htaps p.nmode hlive⟩
  · rw [p.noiseAdvance_counting c hcross]
    refine ⟨?_, hlive⟩
    rw [Psg.setNoiseCount_ncnt]
    omega

/-- One advance of all generators keeps the invariant (R144, R151, R156). -/
theorem Psg.Inv.generators {c : Config} {p : Psg} (hlegal : c.Legal) (h : p.Inv c) : (p.generators c).Inv c := by
  have hnoise := Psg.noiseAdvance_bounds hlegal h.noiseBound h.lfsrLive
  refine ⟨?_, ?_, fun k => ?_, ?_, ?_⟩
  · rw [Psg.generators_q]
    exact h.queueBound
  · rw [Psg.generators_cbAcc]
    exact h.accBound
  · rw [Psg.generators_eq_noiseAdvance]
    dsimp only
    rw [(p.tonesAdvance_channel k).1]
    exact Psg.toneAdvance_tcnt_bounds (h.toneBound k)
  · rw [Psg.generators_eq_noiseAdvance]
    exact hnoise.1
  · rw [Psg.generators_eq_noiseAdvance]
    exact hnoise.2

/-- Item 1 of STEP keeps the invariant: the queue gets no longer and a command can only reset the LFSR (R175). -/
theorem Psg.Inv.dequeue {c : Config} {p : Psg} (h : p.Inv c) : (p.dequeue c).Inv c := by
  refine ⟨?_, ?_, fun k => ?_, ?_, ?_⟩
  · rw [Psg.dequeue_q, List.length_tail]
    exact (Nat.sub_le _ _).trans h.queueBound
  · rw [Psg.dequeue_cbAcc]
    exact h.accBound
  · rw [Psg.dequeue_tcnt]
    exact h.toneBound k
  · rw [Psg.dequeue_ncnt]
    exact h.noiseBound
  · rcases (p.dequeue_frame c).2 with hkept | hreset
    · rw [hkept]
      exact h.lfsrLive
    · rw [hreset]
      decide

/-! ## What a step can do to each half of the state -/

/-- What one event of a step can do to the PSG half under the configuration `c` (R110 to R128). -/
inductive Psg.Move (c : Config) (p : Psg) : Psg → Prop where
  | stay : Move c p p
  | write (b : Byte) : Move c p (p.write b)
  | adv (n : Nat) : Move c p (p.addCredit n)
  | sync : Move c p (p.setSync true)
  | wake : Move c p ((p.setSync false).setWorker .draining)
  | step (h : c.callbackPeriod ≠ 0) : Move c p { (p.dequeue c).generators c with
      cbAcc := (p.cbAcc + 16) % c.callbackPeriod, credit := p.credit - 16 }
  | sleep : Move c p (p.setWorker .idle)

/-- What one event of a step can do to the video half under the configuration `c`, with its condition (R200 to R206). -/
inductive Video.Move (c : Config) (v : Video) : Video → Prop where
  | stay : Move c v v
  | tick : Move c v v.tick
  | pixwr (i o : Nat) (x : Byte) (hi : i < c.nParts) (ho : o < c.partSize) :
      Move c v (Video.memWrite c v v.draw i (o + 1) x)
  | txstart (b : Fin 2) (ha : v.txActive = false) (hs : v.slot = some b) : Move c v (v.takeSlot b)
  | txpart (ha : v.txActive = true) (hp : v.txPart < c.partCount) : Move c v v.nextPart
  | txend (ha : v.txActive = true) (hp : v.txPart = c.partCount) : Move c v v.endTx

/-- After RESET two states are related as the two ends of one step: RESET stays done, the configuration stays, and
each half makes one move. -/
structure State.Moves (s t : State) : Prop where
  done : t.resetDone = true
  cfg : t.cfg = s.cfg
  psg : Psg.Move s.cfg s.psg t.psg
  video : Video.Move s.cfg s.video t.video

/-- STEP answers a next state only where it is enabled, and then the one of its record equation (R122). -/
theorem exec_step_next_eq {s t : State} (h : exec .step s = .next t) :
    s.psg.worker = .draining ∧ 16 ≤ s.psg.credit ∧ s.cfg.callbackPeriod ≠ 0 ∧
    t = { s with
      psg := { (s.psg.dequeue s.cfg).generators s.cfg with
        cbAcc := (s.psg.cbAcc + 16) % s.cfg.callbackPeriod, credit := s.psg.credit - 16 }
      out := { s.out with
        samples := s.out.samples ++ List.replicate ((s.psg.cbAcc + 16) / s.cfg.callbackPeriod)
          (((s.psg.dequeue s.cfg).generators s.cfg).samples s.cfg) } } := by
  obtain ⟨hw, hc, hp, -⟩ := exec_step_next h
  rw [exec_step_eq hw hc hp] at h
  cases h
  exact ⟨hw, hc, hp, rfl⟩

/-- A HOST event after RESET is a move of one half (R110 to R114, R200 to R203); a second RESET has no meaning. -/
theorem exec_hostEvent_moves {s t : State} {line e : Instr} {more : List Instr} (hd : s.resetDone = true)
    (hl : hostEvents line = e :: more) (h : exec e s = .next t) : s.Moves t := by
  rcases hostEvents_mem hl with ⟨b, rfl⟩ | ⟨c, rfl⟩ | rfl | rfl | ⟨i, o, v, rfl⟩ | ⟨c, rfl, -, -⟩
  · cases h
    exact ⟨hd, rfl, .write b, .stay⟩
  · cases h
    exact ⟨hd, rfl, .adv _, .stay⟩
  · cases h
    exact ⟨hd, rfl, .sync, .stay⟩
  · cases h
    exact ⟨hd, rfl, .stay, .tick⟩
  · obtain ⟨hi, ho, rfl⟩ := exec_pixwr_next h
    exact ⟨hd, rfl, .stay, .pixwr i o v hi ho⟩
  · obtain ⟨hn, -, -⟩ := exec_reset_next h
    rw [hd] at hn
    cases hn

/-- A worker's event is a move of its half (R120 to R128, R204 to R206). -/
theorem exec_workerEvent_moves {s t : State} {e : Instr} (hd : s.resetDone = true)
    (he : e ∈ [Instr.wake, .step, .sleep, .txstart, .txpart, .txend]) (h : exec e s = .next t) : s.Moves t := by
  simp only [List.mem_cons, List.not_mem_nil, or_false] at he
  rcases he with rfl | rfl | rfl | rfl | rfl | rfl
  · obtain ⟨-, -, rfl⟩ := exec_wake_next h
    exact ⟨hd, rfl, .wake, .stay⟩
  · obtain ⟨-, -, hp, rfl⟩ := exec_step_next_eq h
    exact ⟨hd, rfl, .step hp, .stay⟩
  · obtain ⟨-, -, rfl⟩ := exec_sleep_next h
    exact ⟨hd, rfl, .sleep, .stay⟩
  · obtain ⟨b, ha, hs, rfl⟩ := exec_txstart_next h
    exact ⟨hd, rfl, .stay, .txstart b ha hs⟩
  · obtain ⟨ha, hp, rfl⟩ := exec_txpart_next h
    exact ⟨hd, rfl, .stay, .txpart ha hp⟩
  · obtain ⟨ha, hp, rfl⟩ := exec_txend_next h
    exact ⟨hd, rfl, .stay, .txend ha hp⟩

/-- What every step after RESET does, said once (R7, R73): at most one move in each half. -/
theorem step_moves {s t : State} (hd : s.resetDone = true) (h : step s = .next t) : s.Moves t := by
  obtain ⟨env, hturn, -⟩ := s.takeTurn_eq
  rcases step_next h with rfl | ⟨line, rest, e, more, -, -, hl, -, hexec⟩ | ⟨-, e, he, hexec⟩
  · rw [hturn]
    exact ⟨hd, rfl, .stay, .stay⟩
  · rw [hturn] at hexec
    obtain ⟨hdone, hcfg, hpsg, hvideo⟩ := exec_hostEvent_moves (by exact hd) hl hexec
    exact ⟨hdone, hcfg, hpsg, hvideo⟩
  · rw [hturn] at hexec
    obtain ⟨hdone, hcfg, hpsg, hvideo⟩ := exec_workerEvent_moves (by exact hd) he hexec
    exact ⟨hdone, hcfg, hpsg, hvideo⟩

/-! ## Every move keeps the invariant -/

/-- Every move of the PSG half keeps its invariant (R48, R144, R151, R156). -/
theorem Psg.Inv.move {c : Config} {p q : Psg} (hlegal : c.Legal) (h : p.Inv c) (hm : Psg.Move c p q) : q.Inv c := by
  cases hm with
  | stay => exact h
  | write b => exact h.write b
  | adv n => exact h.of_eq rfl rfl rfl rfl rfl
  | sync => exact h.of_eq rfl rfl rfl rfl rfl
  | wake => exact h.of_eq rfl rfl rfl rfl rfl
  | step hp =>
    have hgen := Psg.Inv.generators hlegal h.dequeue
    exact ⟨hgen.queueBound, Nat.mod_lt _ (Nat.pos_of_ne_zero hp), hgen.toneBound, hgen.noiseBound, hgen.lfsrLive⟩
  | sleep => exact h.of_eq rfl rfl rfl rfl rfl

/-! ## Reads of the part memories after a write -/

theorem Video.memRead_memWrite_same (c : Config) (v : Video) (b : Fin 2) (i r : Nat) (x : Byte) :
    (Video.memWrite c v b i r x).memRead c b i r = x :=
  Memory.read_write_same c v.mem (c.cellAddr b i r) x

/-- A write to a payload byte leaves every other cell, header bytes among them (R41, R71). -/
theorem Video.memRead_memWrite_ne (c : Config) (v : Video) {b d : Fin 2} {i j r q : Nat} (x : Byte) (hi : i < c.nParts)
    (hj : j < c.nParts) (hr : r ≤ c.partSize) (hq : q ≤ c.partSize) (h : ¬ (d = b ∧ j = i ∧ q = r)) :
    (Video.memWrite c v b i r x).memRead c d j q = v.memRead c d j q :=
  Memory.read_write_ne c v.mem x fun haddr => h (c.cellAddr_injective hj hi hq hr haddr)

/-- The other buffer of the other buffer is the buffer (R42). -/
theorem one_sub_otherBuf (b : Fin 2) : 1 - otherBuf b = b := by
  revert b
  decide

theorem one_sub_ne_self (b : Fin 2) : 1 - b ≠ b := by
  revert b
  decide

/-! ## The video invariant under each move -/

theorem Video.Inv.memWrite {c : Config} {v : Video} (h : v.Inv c) {i o : Nat} (x : Byte) (hi : i < c.nParts)
    (ho : o < c.partSize) : (Video.memWrite c v v.draw i (o + 1) x).Inv c where
  memForm := Memory.wf_write x h.memForm (c.cellAddr_lt v.draw hi ho)
  prefixes b j hj :=
    (Video.memRead_memWrite_ne c v x hi hj ho (Nat.zero_le _) fun he => absurd he.2.2 (Nat.succ_ne_zero o).symm).trans
      (h.prefixes b j hj)
  oneOwner := h.oneOwner
  slotOther := h.slotOther
  txOther := h.txOther
  partBound := h.partBound

/-- The accepted TICK hands the drawable buffer over, which is then the other one (R202). -/
theorem Video.Inv.handOver {c : Config} {v : Video} (h : v.Inv c) (ha : v.txActive = false) : v.handOver.Inv c where
  memForm := h.memForm
  prefixes := h.prefixes
  oneOwner hown := by
    rw [Video.handOver_txActive, ha] at hown
    exact absurd hown.2 Bool.false_ne_true
  slotOther b hb := by
    cases hb
    exact (one_sub_otherBuf v.draw).symm
  txOther hact := by
    rw [Video.handOver_txActive, ha] at hact
    exact absurd hact Bool.false_ne_true
  partBound := h.partBound

theorem Video.Inv.tick {c : Config} {v : Video} (h : v.Inv c) : v.tick.Inv c := by
  rcases v.tick_cases with ⟨-, ha, htick⟩ | ⟨-, htick⟩ <;> rw [htick]
  · exact h.handOver ha
  · exact ⟨h.memForm, h.prefixes, h.oneOwner, h.slotOther, h.txOther, h.partBound⟩

/-- TXSTART moves the buffer handed over from the slot to the transmission (R204). -/
theorem Video.Inv.takeSlot {c : Config} {v : Video} (h : v.Inv c) {b : Fin 2} (hs : v.slot = some b) :
    (v.takeSlot b).Inv c where
  memForm := h.memForm
  prefixes := h.prefixes
  oneOwner hown := absurd hown.1 Bool.false_ne_true
  slotOther _ hb := by cases hb
  txOther _ := h.slotOther b hs
  partBound := Nat.zero_le _

/-- Every move of the video half keeps its invariant (R45, R48, R201, R208). -/
theorem Video.Inv.move {c : Config} {v w : Video} (h : v.Inv c) (hm : Video.Move c v w) : w.Inv c := by
  cases hm with
  | stay => exact h
  | tick => exact h.tick
  | pixwr i o x hi ho => exact h.memWrite x hi ho
  | txstart b ha hs => exact h.takeSlot hs
  | txpart ha hp => exact ⟨h.memForm, h.prefixes, h.oneOwner, h.slotOther, h.txOther, hp⟩
  | txend ha hp =>
    exact ⟨h.memForm, h.prefixes, fun hown => absurd hown.2 Bool.false_ne_true, h.slotOther,
      fun hact => absurd hact Bool.false_ne_true, h.partBound⟩

/-- Settles O54: a step is at most one move of each half, and every move keeps its half's invariant. -/
theorem stepKeepsInvariant : Obligations.StepKeepsInvariant := by
  intro s t hinv h
  obtain ⟨hdone, hcfg, hpsg, hvideo⟩ := step_moves hinv.done h
  exact ⟨hdone, hcfg ▸ hinv.legal, hcfg ▸ hinv.psg.move hinv.legal hpsg, hcfg ▸ hinv.video.move hvideo⟩

/-! ## The invariant at RESET -/

theorem Psg.initial_inv {c : Config} (h : c.Legal) : (Psg.initial c).Inv c where
  queueBound := Nat.zero_le _
  accBound := h.1
  toneBound k := by simp [Psg.initial]
  noiseBound := (by decide : (0 : Int) ≤ 0 ∧ (0 : Int) ≤ 16368)
  lfsrLive := (by decide : lfsrReset ≠ 0)

/-- After RESET the header byte of every part reads as PREFIX_TAG (R201, R251). -/
theorem Video.memRead_initial_prefix (c : Config) (b : Fin 2) (i : Nat) :
    Video.initial.memRead c b i 0 = c.prefixTag := by
  simp [Video.memRead, Video.initial, Memory.read, Memory.get?, Config.unlisted, c.isPrefix_cellAddr b i (Nat.zero_le _)]

/-- After RESET a payload byte reads as its free value (R251, U5). -/
theorem Video.memRead_initial_payload (c : Config) (b : Fin 2) (i : Nat) {r : Nat} (hpos : 1 ≤ r) (hr : r ≤ c.partSize) :
    Video.initial.memRead c b i r = Config.unwrittenByte (c.cellAddr b i r) := by
  have hpayload : r ≠ 0 := by omega
  simp [Video.memRead, Video.initial, Memory.read, Memory.get?, Config.unlisted, c.isPrefix_cellAddr b i hr, hpayload]

theorem Video.initial_inv (c : Config) : Video.initial.Inv c where
  memForm := Memory.wf_initial c
  prefixes b i _ := Video.memRead_initial_prefix c b i
  oneOwner hown := absurd hown.1 Bool.false_ne_true
  slotOther _ hb := by cases hb
  txOther hact := absurd hact Bool.false_ne_true
  partBound := Nat.zero_le _

theorem State.resetWith_inv {c : Config} (h : c.Legal) : (State.resetWith c).Inv :=
  ⟨rfl, h, Psg.initial_inv h, Video.initial_inv c⟩

/-- Settles O53: both halves have their reset values under a legal configuration, and HOST's program is none of them. -/
theorem invariantHoldsAtReset : Obligations.InvariantHoldsAtReset := by
  refine ⟨fun c h => State.resetWith_inv h, State.resetWith_inv (by decide), fun s t c h => ?event⟩
  case event =>
    obtain ⟨-, hlegal, rfl⟩ := exec_reset_next h
    exact ⟨rfl, hlegal, Psg.initial_inv hlegal, Video.initial_inv c⟩

/-! ## What every step keeps -/

theorem Psg.Move.wrDropped_le {c : Config} {p q : Psg} (h : Psg.Move c p q) : p.wrDropped ≤ q.wrDropped := by
  cases h with
  | write b => exact (p.write_frame b).2
  | step hp =>
    dsimp only
    rw [Psg.generators_wrDropped, Psg.dequeue_wrDropped]
  | stay | adv | sync | wake | sleep => exact Nat.le_refl _

theorem Video.Move.droppedFrames_le {c : Config} {v w : Video} (h : Video.Move c v w) :
    v.droppedFrames ≤ w.droppedFrames := by
  cases h with
  | tick =>
    rcases v.tick_cases with ⟨-, -, htick⟩ | ⟨-, htick⟩ <;> rw [htick]
    · exact Nat.le_refl _
    · exact Nat.le_succ _
  | stay | pixwr | txstart | txpart | txend => exact Nat.le_refl _

/-- Settles O55: a move of a half never lowers its drop counter, and no move touches the configuration. -/
theorem configurationAndDropCountersPersist : Obligations.ConfigurationAndDropCountersPersist := by
  intro s t hd h
  obtain ⟨hdone, hcfg, hpsg, hvideo⟩ := step_moves hd h
  exact ⟨hdone, hcfg, hpsg.wrDropped_le, hvideo.droppedFrames_le⟩

/-! ## The buffer in flight -/

/-- The frame in flight is never in the drawable buffer (R208). -/
theorem Video.Inv.sends_ne_draw {c : Config} {v : Video} (h : v.Inv c) {b : Fin 2} (hb : v.sends b) : b ≠ v.draw := by
  have hother : b = 1 - v.draw := by
    rcases hb with hslot | ⟨hact, rfl⟩
    · exact h.slotOther b hslot
    · exact h.txOther hact
  rw [hother]
  exact one_sub_ne_self v.draw

theorem Video.sends_inFlight {v : Video} {b : Fin 2} (hb : v.sends b) : v.slot.isSome = true ∨ v.txActive = true := by
  rcases hb with hslot | ⟨hact, -⟩
  · exact .inl (by rw [hslot]; rfl)
  · exact .inr hact

/-- No move changes a byte of the buffer in flight: the only store goes to the drawable buffer (R78, R208). -/
theorem Video.Inv.move_memRead {c : Config} {v w : Video} (h : v.Inv c) {b : Fin 2} (hb : v.sends b)
    (hm : Video.Move c v w) {j r : Nat} (hj : j < c.nParts) (hr : r ≤ c.partSize) :
    w.memRead c b j r = v.memRead c b j r := by
  cases hm with
  | tick => rw [v.tick_dropped (Video.sends_inFlight hb)]; rfl
  | pixwr i o x hi ho => exact Video.memRead_memWrite_ne c v x hi hj ho hr fun he => h.sends_ne_draw hb he.1
  | stay | txstart | txpart | txend => rfl

/-- A move leaves the frame in flight in its buffer, but for the TXEND that ends its transmission (R207). -/
theorem Video.Move.sends_or_ends {c : Config} {v w : Video} {b : Fin 2} (hb : v.sends b) (hm : Video.Move c v w) :
    w.sends b ∨ (v.txActive = true ∧ v.txPart = c.partCount ∧ w = v.endTx) := by
  cases hm with
  | tick => exact .inl ((v.tick_dropped (Video.sends_inFlight hb)) ▸ hb)
  | txstart d ha hs =>
    rcases hb with hslot | ⟨hact, -⟩
    · cases hs.symm.trans hslot
      exact .inl (.inr ⟨rfl, rfl⟩)
    · cases ha.symm.trans hact
  | txend ha hp => exact .inr ⟨ha, hp, rfl⟩
  | stay | pixwr | txpart => exact .inl hb

/-- Settles O43: a PIXWR and a step are moves of the video half, and the frame in flight is not in the drawable
buffer. -/
theorem rendererCannotTearTransmission : Obligations.RendererCannotTearTransmission := by
  refine ⟨fun s t b i o v hinv hb h => ?pixwr, fun s t b hinv hb h => ?step⟩
  case pixwr =>
    obtain ⟨hi, ho, rfl⟩ := exec_pixwr_next h
    exact ⟨hb, fun j r hj hr => hinv.video.move_memRead hb (.pixwr i o v hi ho) hj hr⟩
  case step =>
    obtain ⟨-, hcfg, -, hvideo⟩ := step_moves hinv.done h
    rw [hcfg]
    exact ⟨hvideo.sends_or_ends hb, fun j r hj hr => hinv.video.move_memRead hb hvideo hj hr⟩

end Sys2Proof.Machine

namespace Sys2Proof.Machine

/-! ## The LATCH commands -/

/-- A command's instruction executes as the command on the PSG registers (R124). -/
theorem exec_toInstr (k : Command) (s : State) :
    exec k.toInstr s = .next { s with psg := s.psg.runCommand s.cfg k } := by
  rw [← decodeByte_encodeCommand, exec_decodeByte, decodeCommand_encodeCommand]

@[simp] theorem Psg.latchTone_period_same (p : Psg) (c : Fin 3) (n : Nibble) :
    (p.latchTone c n).period[c] = periodLatch p.period[c] n := by
  simp [Psg.latchTone]

/-- A register file after a write at one index, read at another. -/
theorem getElem_set_of_ne {α : Type} {n : Nat} (v : Vector α n) {c d : Fin n} (x : α) (h : d ≠ c) :
    (v.set c x)[d] = v[d] :=
  Vector.getElem_set_ne c.isLt d.isLt fun he => h (Fin.ext he.symm)

/-- The layout of an LTONE byte (R91, R95). -/
theorem encodeCommand_ltone (c : Fin 3) (n : Nibble) :
    encodeCommand (.ltone c n) = 0x80#8 ||| (BitVec.ofNat 8 c.val <<< 5) ||| n.setWidth 8 := by
  revert c n
  decide

/-- The layout of an LVOL byte (R91, R95). -/
theorem encodeCommand_lvol (c : Fin 4) (v : Nibble) :
    encodeCommand (.lvol c v) = 0x90#8 ||| (BitVec.ofNat 8 c.val <<< 5) ||| v.setWidth 8 := by
  revert c v
  decide

/-- The layout of an LNOISE byte (R93, R95). -/
theorem encodeCommand_lnoise (m : BitVec 1) (r : BitVec 2) :
    encodeCommand (.lnoise m r) = 0xE0#8 ||| (m.setWidth 8 <<< 2) ||| r.setWidth 8 := by
  revert m r
  decide

/-- The layout of a DATA byte (R92, R95). -/
theorem encodeCommand_data (d : BitVec 6) : encodeCommand (.data d) = d.setWidth 8 := by
  revert d
  decide

/-- Settles O1: LTONE is `Psg.latchTone`, whose period write is the low nibble's. -/
theorem ltoneLoadsLowNibble : Obligations.LtoneLoadsLowNibble := by
  intro s c n
  obtain ⟨hlow, hhigh, -⟩ := periodLatch_bits s.psg.period[c] n
  have hsame := s.psg.latchTone_period_same c n
  refine ⟨_, exec_toInstr (.ltone c n) s, rfl, rfl, ?low, ?high, fun d hd => ?other, rfl, ?byte⟩
  case low => exact (congrArg _ hsame).trans hlow
  case high => exact (congrArg _ hsame).trans hhigh
  case other => exact getElem_set_of_ne _ _ hd
  case byte => rw [encode_toInstr, encodeCommand_ltone]

/-- Settles O2: LVOL is the latch and one write to the volumes. -/
theorem lvolLoadsVolume : Obligations.LvolLoadsVolume := by
  intro s c v
  refine ⟨_, exec_toInstr (.lvol c v) s, rfl, rfl, ?same, fun d hd => ?other, rfl, ?byte⟩
  case same => exact Vector.getElem_set_self c.isLt
  case other => exact getElem_set_of_ne _ _ hd
  case byte => rw [encode_toInstr, encodeCommand_lvol]

/-- Settles O3: LNOISE is the latch and the noise write. -/
theorem lnoiseRestartsLfsr : Obligations.LnoiseRestartsLfsr := by
  intro s m r
  exact ⟨exec_toInstr (.lnoise m r) s, by rw [← encodeCommand_lnoise, ← encode_toInstr, Command.toInstr]⟩

/-- Settles O9: every byte runs as a command, and a command has the frame of R175. -/
theorem everyByteIsACommandOnRegisters : Obligations.EveryByteIsACommandOnRegisters := by
  intro s b
  obtain ⟨hframe, hlfsr⟩ := s.psg.runCommand_frame s.cfg (decodeCommand b)
  exact ⟨_, exec_decodeByte b s, congrArg (fun p => { s with psg := p }) hframe, hlfsr⟩

/-! ## The DATA command -/

@[simp] theorem Psg.dataTone_period_same (cfg : Config) (p : Psg) (c : Fin 3) (d : BitVec 6) :
    (p.dataTone cfg c d).period[c] = periodData cfg p.period[c] d := by
  simp [Psg.dataTone]

theorem Psg.dataTone_period_other (cfg : Config) (p : Psg) {c e : Fin 3} (d : BitVec 6) (h : e ≠ c) :
    (p.dataTone cfg c d).period[e] = p.period[e] :=
  getElem_set_of_ne _ _ h

/-- Settles O4: DATA is one of its three forms, and each form writes its one register. -/
theorem dataWritesLatchedRegister : Obligations.DataWritesLatchedRegister := by
  intro s d
  refine ⟨_, exec_data d s, fun ht => ?volume, fun c ht hc => ?tone, fun ht hc => ?noise⟩
  case volume =>
    rw [s.psg.dataWrite_volume s.cfg d ht]
    rfl
  case tone =>
    rw [s.psg.dataWrite_tone s.cfg d c ht hc]
    have hsame := s.psg.dataTone_period_same s.cfg c d
    refine ⟨rfl, fun e he => s.psg.dataTone_period_other s.cfg d he, fun hw => ?_, fun hw => ?_⟩
    · rw [hsame, periodData_width6 hw, periodData6]
    · rw [hsame, periodData_width4 hw, periodData4]
  case noise =>
    rw [s.psg.dataWrite_noise s.cfg d ht hc, Psg.noiseWrite_eq, nibbleMode_lowNibble, nibbleRate_lowNibble]

/-- A DATA write leaves the low nibble of a period under every width (R184). -/
theorem periodData_low (cfg : Config) (p : BitVec 10) (d : BitVec 6) :
    (periodData cfg p d).extractLsb' 0 4 = p.extractLsb' 0 4 := by
  obtain ⟨hlow6, -⟩ := periodData6_bits p d
  obtain ⟨hlow4, -⟩ := periodData4_bits p d
  unfold periodData
  split
  · exact hlow6
  · split
    · exact hlow4
    · rfl

/-- Settles O5: under its latch DATA.TONE is the period write of the configured width. -/
theorem dataToneLoadsHighBits : Obligations.DataToneLoadsHighBits := by
  intro s c d ht hc
  have hsame := s.psg.dataTone_period_same s.cfg c d
  obtain ⟨-, hhigh6, -⟩ := periodData6_bits s.psg.period[c] d
  obtain ⟨-, hmid4, htop4⟩ := periodData4_bits s.psg.period[c] d
  refine ⟨_, exec_dataTone_selected ht hc d, rfl, fun e he => s.psg.dataTone_period_other s.cfg d he, ?low,
    fun hw => ?width6, fun hw => ?width4⟩
  case low => rw [hsame, periodData_low]
  case width6 => rw [hsame, periodData_width6 hw, hhigh6]
  case width4 =>
    rw [hsame, periodData_width4 hw]
    exact ⟨hmid4, htop4⟩

/-! ## DATA rows the latch does not select -/

theorem exec_dataTone_of_volume {s : State} (ht : s.psg.latchType = .volume) (d : BitVec 6) :
    exec (.dataTone d) s = .refused .notSelectedByLatch := by
  show execDataTone d s = _
  simp [execDataTone, ht]

theorem exec_dataTone_of_noise {s : State} (ht : s.psg.latchType = .tone) (hc : s.psg.latchCh = 3) (d : BitVec 6) :
    exec (.dataTone d) s = .refused .notSelectedByLatch := by
  show execDataTone d s = _
  simp [execDataTone, ht, toneChannel_eq_none.2 hc]

theorem exec_dataVol_of_tone {s : State} (ht : s.psg.latchType = .tone) (v : Nibble) :
    exec (.dataVol v) s = .refused .notSelectedByLatch := by
  show execDataVol v s = _
  simp [execDataVol, ht]

theorem exec_dataNoise_of_volume {s : State} (ht : s.psg.latchType = .volume) (m : BitVec 1) (r : BitVec 2) :
    exec (.dataNoise m r) s = .refused .notSelectedByLatch := by
  show execDataNoise m r s = _
  simp [execDataNoise, ht]

theorem exec_dataNoise_of_tone {s : State} {c : Fin 3} (ht : s.psg.latchType = .tone) (hc : s.psg.latchCh.val = c.val)
    (m : BitVec 1) (r : BitVec 2) : exec (.dataNoise m r) s = .refused .notSelectedByLatch := by
  show execDataNoise m r s = _
  simp [execDataNoise, ht, toneChannel_eq_some.2 hc]

/-- Settles O7, by the three places of the latch: two rows are refused and the third is the resolved one. -/
theorem dataIsItsSelectedForm : Obligations.DataIsItsSelectedForm := by
  intro s d
  refine ⟨(exec_resolveData s d).symm, fun i hi hne => ?_⟩
  simp only [List.mem_cons, List.not_mem_nil, or_false] at hi
  rcases s.psg.dataWrite_cases s.cfg d with ⟨ht, -⟩ | ⟨c, ht, hc, -⟩ | ⟨ht, hc, -⟩
  · rw [ht, resolveData] at hne
    rcases hi with rfl | rfl | rfl
    · exact exec_dataTone_of_volume ht d
    · exact absurd rfl hne
    · exact exec_dataNoise_of_volume ht _ _
  · rw [ht, resolveData_tone hc] at hne
    rcases hi with rfl | rfl | rfl
    · exact absurd rfl hne
    · exact exec_dataVol_of_tone ht _
    · exact exec_dataNoise_of_tone ht hc _ _
  · rw [ht, hc, resolveData] at hne
    rcases hi with rfl | rfl | rfl
    · exact exec_dataTone_of_noise ht hc d
    · exact exec_dataVol_of_tone ht _
    · exact absurd rfl hne

/-- The two high bits of a nibble widened to a DATA operand are 0 (R187). -/
theorem high_widened (v : Nibble) : (0#2 ++ v : BitVec 6).extractLsb' 4 2 = 0 := by
  revert v
  decide

/-- Settles O8: after LTONE the latch is at the channel's period, so the DATA write lands in the same register. -/
theorem latchThenDataRoundTrip : Obligations.LatchThenDataRoundTrip := by
  intro s c n d
  obtain ⟨hlow, hhigh, htop⟩ := periodLatch_bits s.psg.period[c] n
  have hlatch := s.psg.latchTone_period_same c n
  have hdata := (s.psg.latchTone c n).dataTone_period_same s.cfg c (0#2 ++ d)
  have hwrite := (s.psg.latchTone c n).dataWrite_tone s.cfg (0#2 ++ d) c rfl rfl
  rw [hlatch] at hdata
  rw [← hlatch] at hlow hhigh
  rw [← hwrite] at hdata
  obtain ⟨-, -, hmid6, htop6⟩ := periodData6_bits (periodLatch s.psg.period[c] n) (0#2 ++ d)
  obtain ⟨-, hmid4, htop4⟩ := periodData4_bits (periodLatch s.psg.period[c] n) (0#2 ++ d)
  have hnibble : (0#2 ++ d : BitVec 6).extractLsb' 0 4 = d := lowNibble_widened d
  refine ⟨_, _, exec_toInstr (.ltone c n) s, exec_data _ _, hlow, hhigh, ?low, fun hw => ?mid, fun hw => ?top4,
    fun hw => ?top6⟩
  case low => exact (congrArg _ hdata).trans ((periodData_low s.cfg _ _).trans ((congrArg _ hlatch).symm.trans hlow))
  case mid =>
    refine (congrArg _ hdata).trans ?_
    rcases hw with hw | hw
    · rw [periodData_width6 hw, hmid6, hnibble]
    · rw [periodData_width4 hw, hmid4, hnibble]
  case top4 => exact (congrArg _ hdata).trans (by rw [periodData_width4 hw, htop4, htop])
  case top6 => exact (congrArg _ hdata).trans (by rw [periodData_width6 hw, htop6, high_widened])

end Sys2Proof.Machine

namespace Sys2Proof.Machine

/-! ## The frame of STEP -/

/-- What STEP does outside the generators and the strobe divider (R122, R123, R126, R127). -/
theorem exec_step_frame {s t : State} (h : exec .step s = .next t) :
    t.psg = { s.psg.dequeue s.cfg with
      tcnt := t.psg.tcnt, tpol := t.psg.tpol, ncnt := t.psg.ncnt, nff := t.psg.nff, lfsr := t.psg.lfsr
      npol := t.psg.npol, cbAcc := t.psg.cbAcc, credit := t.psg.credit } ∧
    t.psg.credit + 16 = s.psg.credit ∧
    t = { s with psg := t.psg, out := { s.out with samples := t.out.samples } } := by
  obtain ⟨-, hc, -, rfl⟩ := exec_step_next_eq h
  refine ⟨?_, Nat.sub_add_cancel hc, rfl⟩
  rw [Psg.generators_frame]

/-- STEP completes where it is enabled (R122). -/
theorem exec_step_completes {s : State} (hw : s.psg.worker = .draining) (hc : 16 ≤ s.psg.credit)
    (hp : s.cfg.callbackPeriod ≠ 0) : ∃ t, exec .step s = .next t :=
  ⟨_, exec_step_enabled hw hc hp⟩

/-- STEP removes the head of the queue, where there is one (R123). -/
theorem exec_step_queue {s t : State} (h : exec .step s = .next t) : t.psg.q = s.psg.q.tail := by
  obtain ⟨-, -, -, rfl⟩ := exec_step_next_eq h
  exact (Psg.generators_q _ _).trans (Psg.dequeue_q _ _)

/-- STEP leaves the worker, the wake flag and the drop counter (R122, R127). -/
theorem exec_step_worker {s t : State} (h : exec .step s = .next t) :
    t.psg.worker = s.psg.worker ∧ t.psg.syncPending = s.psg.syncPending ∧ t.psg.wrDropped = s.psg.wrDropped := by
  obtain ⟨-, -, -, rfl⟩ := exec_step_next_eq h
  simp

/-- STEP leaves the latch as its command left it (R26). -/
theorem exec_step_latch {s t : State} (h : exec .step s = .next t) :
    t.psg.latchCh = (s.psg.dequeue s.cfg).latchCh ∧ t.psg.latchType = (s.psg.dequeue s.cfg).latchType := by
  obtain ⟨-, -, -, rfl⟩ := exec_step_next_eq h
  simp

/-- What STEP emits and leaves in the accumulator (R161 to R166), by the registers after it. -/
theorem exec_step_strobes {s t : State} (h : exec .step s = .next t) :
    t.out.samples = s.out.samples ++
      List.replicate ((s.psg.cbAcc + 16) / s.cfg.callbackPeriod) (t.psg.samples s.cfg) ∧
    t.psg.cbAcc = (s.psg.cbAcc + 16) % s.cfg.callbackPeriod ∧ t.psg.vol = (s.psg.dequeue s.cfg).vol := by
  obtain ⟨-, -, -, rfl⟩ := exec_step_next_eq h
  exact ⟨rfl, rfl, Psg.generators_vol _ _⟩

/-- Settles O21: the frame of STEP with the rules for the queue, the worker and the latch. -/
theorem stepFrameAndCredit : Obligations.StepFrameAndCredit := by
  intro s hw hc hp
  obtain ⟨t, h⟩ := exec_step_completes hw hc hp
  obtain ⟨hpsg, hcredit, hrest⟩ := exec_step_frame h
  obtain ⟨hworker, hsync, hdropped⟩ := exec_step_worker h
  obtain ⟨hch, htype⟩ := exec_step_latch h
  obtain ⟨hsamples, -, -⟩ := exec_step_strobes h
  exact ⟨t, h, exec_step_queue h, hcredit, hworker, hsync, hdropped, hch, htype, hpsg, hrest,
    hsamples ▸ List.prefix_append _ _⟩

/-! ## The tone channels in a STEP -/

/-- One STEP is one advance of each tone channel, on the periods its command left (R122, R136). -/
theorem exec_step_tone {s t : State} (h : exec .step s = .next t) (c : Fin 3) :
    t.psg.period = (s.psg.dequeue s.cfg).period ∧
    (t.psg.tcnt[c], t.psg.tpol[c]) =
      if 0 < s.psg.tcnt[c] ∨ 8 ≤ t.psg.period[c].toNat then
        (if s.psg.tcnt[c] - 16 ≤ 0 then
          (((t.psg.period[c].toNat * 16 : Nat) : Int), if t.psg.period[c] = 1 then s.psg.tpol[c] else !s.psg.tpol[c])
        else (s.psg.tcnt[c] - 16, s.psg.tpol[c]))
      else (s.psg.tcnt[c], s.psg.tpol[c]) := by
  obtain ⟨-, -, -, rfl⟩ := exec_step_next_eq h
  have hperiod := Psg.generators_period s.cfg (s.psg.dequeue s.cfg)
  have hchannel := (s.psg.dequeue s.cfg).toneAdvance_channel c
  obtain ⟨hcnt, hpol⟩ := (s.psg.dequeue s.cfg).tonesAdvance_channel c
  rw [← hcnt, ← hpol, Psg.dequeue_tcnt, Psg.dequeue_tpol, ← hperiod] at hchannel
  refine ⟨hperiod, Eq.trans ?_ hchannel⟩
  rw [Psg.generators_eq_noiseAdvance]

section
variable {s t : State} (h : exec .step s = .next t) {c : Fin 3}
include h

/-- A crossing reloads and toggles, but for period 1 (R136 to R139). -/
theorem exec_step_tone_crosses (hguard : 0 < s.psg.tcnt[c] ∨ 8 ≤ t.psg.period[c].toNat)
    (hcross : s.psg.tcnt[c] - 16 ≤ 0) :
    t.psg.tcnt[c] = ((t.psg.period[c].toNat * 16 : Nat) : Int) ∧
    t.psg.tpol[c] = if t.psg.period[c] = 1 then s.psg.tpol[c] else !s.psg.tpol[c] := by
  obtain ⟨-, hchannel⟩ := exec_step_tone h c
  rw [if_pos hguard, if_pos hcross] at hchannel
  exact Prod.ext_iff.1 hchannel

/-- Above a crossing the counter falls by 16 and the polarity stays (R136). -/
theorem exec_step_tone_counts (hguard : 0 < s.psg.tcnt[c] ∨ 8 ≤ t.psg.period[c].toNat)
    (hcount : ¬ s.psg.tcnt[c] - 16 ≤ 0) :
    t.psg.tcnt[c] = s.psg.tcnt[c] - 16 ∧ t.psg.tpol[c] = s.psg.tpol[c] := by
  obtain ⟨-, hchannel⟩ := exec_step_tone h c
  rw [if_pos hguard, if_neg hcount] at hchannel
  exact Prod.ext_iff.1 hchannel

/-- Without the guard the channel stays (R140). -/
theorem exec_step_tone_stays (hguard : ¬ (0 < s.psg.tcnt[c] ∨ 8 ≤ t.psg.period[c].toNat)) :
    t.psg.tcnt[c] = s.psg.tcnt[c] ∧ t.psg.tpol[c] = s.psg.tpol[c] := by
  obtain ⟨-, hchannel⟩ := exec_step_tone h c
  rw [if_neg hguard] at hchannel
  exact Prod.ext_iff.1 hchannel

end

/-- Settles O22, by the guard and the crossing. -/
theorem stepAdvancesTones : Obligations.StepAdvancesTones := by
  intro s c hw hc hp
  obtain ⟨t, h⟩ := exec_step_completes hw hc hp
  refine ⟨_, h, (exec_step_tone h c).1, ?_⟩
  split
  next hguard =>
    split
    next hcross => exact exec_step_tone_crosses h hguard hcross
    next hcount => exact exec_step_tone_counts h hguard hcount
  next hguard => exact exec_step_tone_stays h hguard

/-- Settles O23: only a crossing writes the polarity, and at period 1 it writes the old one. -/
theorem pcmPeriodNeverToggles : Obligations.PcmPeriodNeverToggles := by
  intro s t c h hone
  by_cases hguard : 0 < s.psg.tcnt[c] ∨ 8 ≤ t.psg.period[c].toNat
  · by_cases hcross : s.psg.tcnt[c] - 16 ≤ 0
    · rw [(exec_step_tone_crosses h hguard hcross).2, if_pos hone]
    · exact (exec_step_tone_counts h hguard hcross).2
  · exact (exec_step_tone_stays h hguard).2

/-- Settles O24: neither half of the guard holds. -/
theorem smallPeriodDoesNotStartChannel : Obligations.SmallPeriodDoesNotStartChannel := by
  intro s c hw hc hp hstopped hsmall
  obtain ⟨t, h⟩ := exec_step_completes hw hc hp
  obtain ⟨hperiod, -⟩ := exec_step_tone h c
  rw [← hperiod] at hsmall
  obtain ⟨hcnt, hpol⟩ := exec_step_tone_stays h (c := c) (by omega)
  exact ⟨_, h, hcnt.trans hstopped, hpol⟩

theorem ne_one_of_two_le_toNat {p : BitVec 10} (h : 2 ≤ p.toNat) : p ≠ 1 := by
  rintro rfl
  exact absurd h (by decide)

/-- Settles O10: the command has written the period before the channel's guard reads it. -/
theorem periodWriteStartsChannelInSameStep : Obligations.PeriodWriteStartsChannelInSameStep := by
  intro s c n rest hw hc hp hq hstopped hlarge
  obtain ⟨t, h⟩ := exec_step_completes hw hc hp
  have hqueue := exec_step_queue h
  have hcommand : s.psg.dequeue s.cfg = ({ s.psg with q := rest } : Psg).latchTone c n := by
    rw [Psg.dequeue_cons s.cfg s.psg hq, decodeCommand_encodeCommand, Psg.runCommand]
  have hperiod : t.psg.period[c] = s.psg.period[c].extractLsb' 4 6 ++ n := by
    rw [(exec_step_tone h c).1, hcommand, Psg.latchTone_period_same, periodLatch]
  rw [← hperiod] at hlarge
  obtain ⟨hcnt, hpol⟩ := exec_step_tone_crosses h (c := c) (.inr hlarge) (by omega)
  rw [if_neg (ne_one_of_two_le_toNat (by omega))] at hpol
  rw [hq, List.tail_cons] at hqueue
  exact ⟨t, h, hqueue, hperiod, hcnt, hpol⟩

/-! ## The strobes of a STEP -/

/-- Settles O29: each sample is the gated level of its channel. -/
theorem stepEmitsStrobes : Obligations.StepEmitsStrobes := by
  intro s hw hc hp
  obtain ⟨t, h⟩ := exec_step_completes hw hc hp
  obtain ⟨hsamples, hacc, hvol⟩ := exec_step_strobes h
  exact ⟨_, _, h, hsamples, hacc, hvol, gatedSample_toNat _ _ _, gatedSample_toNat _ _ _, gatedSample_toNat _ _ _,
    gatedSample_toNat _ _ _⟩

/-- With every volume 0xF the strobe is silent, whatever the polarities (R160). -/
theorem Psg.samples_silent (c : Config) {p : Psg} (h : ∀ k : Fin 4, p.vol[k] = 0xF) : p.samples c = ⟨0, 0, 0, 0⟩ := by
  have h0 : p.vol[0] = 0xF := h 0
  have h1 : p.vol[1] = 0xF := h 1
  have h2 : p.vol[2] = 0xF := h 2
  have h3 : p.vol[3] = 0xF := h 3
  rw [Psg.samples, h0, h1, h2, h3]
  simp only [gatedSample_silent]

/-! ## Sequences of equal rounds, and of STEPs -/

/-- An induction over `n` equal rounds of events: what each round carries from `k` to `k + 1` holds after all. -/
theorem runEvents_rounds {is : List Instr} {Q : Nat → State → Prop} {s : State} (n : Nat) (h0 : Q 0 s)
    (hround : ∀ k u, k < n → Q k u → ∃ v, runEvents is u = .next v ∧ Q (k + 1) v) :
    ∃ t, runEvents (List.replicate n is).flatten s = .next t ∧ Q n t := by
  induction n with
  | zero => exact ⟨s, rfl, h0⟩
  | succ n ih =>
    obtain ⟨u, hu, hQ⟩ := ih fun k v hk => hround k v (Nat.lt_succ_of_lt hk)
    obtain ⟨t, ht, hQt⟩ := hround n u (Nat.lt_succ_self n) hQ
    refine ⟨t, ?_, hQt⟩
    rw [List.replicate_succ', List.flatten_append, runEvents_append hu, List.flatten_singleton, ht]

/-- The same for `n` equal events. -/
theorem runEvents_replicate {i : Instr} {Q : Nat → State → Prop} {s : State} (n : Nat) (h0 : Q 0 s)
    (hevent : ∀ k u, k < n → Q k u → ∃ v, exec i u = .next v ∧ Q (k + 1) v) :
    ∃ t, runEvents (List.replicate n i) s = .next t ∧ Q n t := by
  rw [← List.flatten_replicate_singleton]
  refine runEvents_rounds n h0 fun k u hk hQ => ?_
  obtain ⟨v, hv, hQv⟩ := hevent k u hk hQ
  exact ⟨v, runEvents_cons hv, hQv⟩

/-- `t` is a state `n` STEPs after `s`, as far as the frame of STEP tells. -/
structure State.AfterSteps (s : State) (n : Nat) (t : State) : Prop where
  worker : t.psg.worker = .draining
  cfg : t.cfg = s.cfg
  credit : t.psg.credit + 16 * n = s.psg.credit
  queue : t.psg.q = s.psg.q.drop n

/-- One more STEP (R123, R126). -/
theorem State.AfterSteps.succ {s u v : State} {k : Nat} (h : s.AfterSteps k u) (hstep : exec .step u = .next v) :
    s.AfterSteps (k + 1) v := by
  obtain ⟨-, hcredit, hrest⟩ := exec_step_frame hstep
  refine ⟨(exec_step_worker hstep).1.trans h.worker, ?cfg, ?credit, ?queue⟩
  case cfg =>
    rw [hrest]
    exact h.cfg
  case credit =>
    have := h.credit
    omega
  case queue => rw [exec_step_queue hstep, h.queue, List.tail_drop]

/-- `n` STEPs complete where the credit suffices, and carry every `Q` that one STEP carries on. -/
theorem runEvents_steps {s : State} {Q : Nat → State → Prop} (n : Nat) (hw : s.psg.worker = .draining)
    (hp : s.cfg.callbackPeriod ≠ 0) (hc : 16 * n ≤ s.psg.credit) (h0 : Q 0 s)
    (hstep : ∀ k u v, k < n → s.AfterSteps k u → Q k u → exec .step u = .next v → Q (k + 1) v) :
    ∃ t, runEvents (List.replicate n .step) s = .next t ∧ s.AfterSteps n t ∧ Q n t := by
  refine runEvents_replicate (Q := fun k u => s.AfterSteps k u ∧ Q k u) n ⟨⟨hw, rfl, rfl, rfl⟩, h0⟩ ?_
  rintro k u hk ⟨hafter, hQ⟩
  have hcredit := hafter.credit
  obtain ⟨v, h⟩ := exec_step_completes hafter.worker (show 16 ≤ u.psg.credit by omega) (hafter.cfg ▸ hp)
  exact ⟨v, h, hafter.succ h, hstep k u v hk hafter hQ h⟩

/-- Settles O33: `k` STEPs drop the first `k` bytes of the queue. -/
theorem queueIsFirstInFirstOut : Obligations.QueueIsFirstInFirstOut := by
  intro s ahead rest hw hp hq hc
  obtain ⟨t, hrun, hafter, -⟩ := runEvents_steps (Q := fun _ _ => True) ahead.length hw hp hc trivial
    fun _ _ _ _ _ _ _ => trivial
  refine ⟨t, hrun, ?_⟩
  rw [hafter.queue, hq, List.drop_left]

/-- With an empty queue a STEP leaves every period and volume (R123). -/
theorem exec_step_empty_queue {s t : State} (h : exec .step s = .next t) (hq : s.psg.q = []) :
    t.psg.period = s.psg.period ∧ t.psg.vol = s.psg.vol := by
  have hperiod := (exec_step_tone h 0).1
  obtain ⟨-, -, hvol⟩ := exec_step_strobes h
  rw [s.psg.dequeue_empty s.cfg hq] at hperiod hvol
  exact ⟨hperiod, hvol⟩

/-- An empty queue is empty after every number of STEPs. -/
theorem State.AfterSteps.queue_empty {s t : State} {n : Nat} (h : s.AfterSteps n t) (hq : s.psg.q = []) : t.psg.q = [] := by
  rw [h.queue, hq, List.drop_nil]

/-! ## A running channel -/

/-- Channel `c` `k` STEPs after a reload with period `p`: it has counted down `k` times, or reloaded at the `p`-th
(R142). -/
def ToneAfter (s : State) (c : Fin 3) (k : Nat) (t : State) : Prop :=
  t.psg.period[c] = s.psg.period[c] ∧
  if k = s.psg.period[c].toNat then t.psg.tcnt[c] = s.psg.tcnt[c] ∧ t.psg.tpol[c] = !s.psg.tpol[c]
  else t.psg.tcnt[c] = s.psg.tcnt[c] - 16 * (k : Int) ∧ t.psg.tpol[c] = s.psg.tpol[c]

/-- One more STEP below the period: the counter is a positive multiple of 16, and crosses at the last one only. -/
theorem ToneAfter.succ {s u v : State} {c : Fin 3} {k : Nat} (hp : 2 ≤ s.psg.period[c].toNat)
    (hreloaded : s.psg.tcnt[c] = ((s.psg.period[c].toNat * 16 : Nat) : Int)) (hk : k < s.psg.period[c].toNat)
    (hu : ToneAfter s c k u) (hstep : exec .step u = .next v) (hperiod : v.psg.period = u.psg.period) :
    ToneAfter s c (k + 1) v := by
  obtain ⟨hup, htone⟩ := hu
  rw [if_neg hk.ne] at htone
  obtain ⟨hcnt, hpol⟩ := htone
  have hvp : v.psg.period[c] = s.psg.period[c] := (congrArg (·[c]) hperiod).trans hup
  refine ⟨hvp, ?_⟩
  split
  next hlast =>
    obtain ⟨hvcnt, hvpol⟩ := exec_step_tone_crosses hstep (c := c) (.inl (by omega)) (by omega)
    rw [hvp, if_neg (ne_one_of_two_le_toNat hp), hpol] at hvpol
    rw [hvp, ← hreloaded] at hvcnt
    exact ⟨hvcnt, hvpol⟩
  next hbefore =>
    obtain ⟨hvcnt, hvpol⟩ := exec_step_tone_counts hstep (c := c) (.inl (by omega)) (by omega)
    exact ⟨by omega, hvpol.trans hpol⟩

/-- Settles O25, by induction on the STEPs since the reload. -/
theorem runningChannelTogglesEveryPeriod : Obligations.RunningChannelTogglesEveryPeriod := by
  intro s c k hw hq hcp hp hreloaded hk hc
  have hstart : ToneAfter s c 0 s := ⟨rfl, by rw [if_neg (by omega)]; exact ⟨by omega, rfl⟩⟩
  obtain ⟨t, hrun, -, hperiod, htone⟩ := runEvents_steps (Q := ToneAfter s c) k hw hcp hc hstart
    fun j u v hj hafter hu hstep => hu.succ hp hreloaded (by omega) hstep
      (exec_step_empty_queue hstep (hafter.queue_empty hq)).1
  exact ⟨t, hrun, hperiod, htone⟩

/-! ## Strobes along a sequence of STEPs -/

/-- Dividing in two portions: the remainder of the first goes into the second (R166). -/
theorem div_add_mod_add_div {P : Nat} (hP : P ≠ 0) (a b : Nat) : a / P + (a % P + b) / P = (a + b) / P := by
  conv_rhs => rw [← Nat.div_add_mod a P, Nat.add_assoc, Nat.mul_add_div (Nat.pos_of_ne_zero hP)]

/-- `u` has the strobe count and the accumulator that `k` STEPs after `s` give (R166). -/
def State.StrobesAfter (s : State) (k : Nat) (u : State) : Prop :=
  u.out.samples.length = s.out.samples.length + (s.psg.cbAcc + 16 * k) / s.cfg.callbackPeriod ∧
  u.psg.cbAcc = (s.psg.cbAcc + 16 * k) % s.cfg.callbackPeriod

theorem State.StrobesAfter.succ {s u v : State} {k : Nat} (hp : s.cfg.callbackPeriod ≠ 0) (hcfg : u.cfg = s.cfg)
    (hu : s.StrobesAfter k u) (hstep : exec .step u = .next v) : s.StrobesAfter (k + 1) v := by
  obtain ⟨hcount, hrem⟩ := hu
  obtain ⟨hsamples, hv, -⟩ := exec_step_strobes hstep
  rw [hcfg, hrem] at hsamples hv
  refine ⟨?count, ?rem⟩
  case count =>
    rw [hsamples, List.length_append, List.length_replicate, hcount, Nat.add_assoc, div_add_mod_add_div hp, Nat.mul_succ,
      Nat.add_assoc]
  case rem => rw [hv, Nat.mod_add_mod, Nat.mul_succ, Nat.add_assoc]

/-- Settles O30, by induction on the STEPs. -/
theorem strobesPerCredit : Obligations.StrobesPerCredit := by
  intro s n hw hacc hc
  have hp : s.cfg.callbackPeriod ≠ 0 := Nat.ne_of_gt (Nat.zero_lt_of_lt hacc)
  have hstart : s.StrobesAfter 0 s := ⟨by simp [Nat.div_eq_of_lt hacc], (Nat.mod_eq_of_lt hacc).symm⟩
  obtain ⟨t, hrun, -, hcount, hrem⟩ := runEvents_steps n hw hp hc hstart
    fun _ _ _ _ hafter hu hstep => hu.succ hp hafter.cfg hstep
  exact ⟨t, hrun, hcount, hrem⟩

/-- From `s` to `u` the volumes have not changed and every new strobe is silent (R168). -/
def State.SilentUntil (s u : State) : Prop :=
  u.psg.vol = s.psg.vol ∧ ∃ xs, u.out.samples = s.out.samples ++ xs ∧ ∀ x ∈ xs, x = ⟨0, 0, 0, 0⟩

/-- One more STEP with an empty queue and silent volumes. -/
theorem State.SilentUntil.succ {s u v : State} (hvol : ∀ c : Fin 4, s.psg.vol[c] = 0xF) (hq : u.psg.q = [])
    (hu : s.SilentUntil u) (hstep : exec .step u = .next v) : s.SilentUntil v := by
  obtain ⟨huvol, xs, hxs, hzero⟩ := hu
  have hvvol := (exec_step_empty_queue hstep hq).2.trans huvol
  obtain ⟨hsamples, -, -⟩ := exec_step_strobes hstep
  rw [Psg.samples_silent _ (p := v.psg) (hvvol ▸ hvol), hxs, List.append_assoc] at hsamples
  refine ⟨hvvol, _, hsamples, fun x hx => ?_⟩
  rcases List.mem_append.1 hx with hx | hx
  · exact hzero x hx
  · exact List.eq_of_mem_replicate hx

/-- Settles O31: the strobes are silent, and their number is that of O30. -/
theorem silentVolumesGiveZeroSamples : Obligations.SilentVolumesGiveZeroSamples := by
  intro s n hw hq hvol hacc hc
  have hp : s.cfg.callbackPeriod ≠ 0 := Nat.ne_of_gt (Nat.zero_lt_of_lt hacc)
  have hstart : s.SilentUntil s := ⟨rfl, [], (List.append_nil _).symm, fun x hx => absurd hx List.not_mem_nil⟩
  obtain ⟨t, hrun, -, -, xs, hxs, hzero⟩ := runEvents_steps (Q := fun _ => s.SilentUntil) n hw hp hc hstart
    fun _ _ _ _ hafter hu hstep => hu.succ hvol (hafter.queue_empty hq) hstep
  obtain ⟨u, hrun', hcount, -⟩ := strobesPerCredit s n hw hacc hc
  cases hrun.symm.trans hrun'
  rw [hxs, List.length_append, Nat.add_left_cancel_iff] at hcount
  exact ⟨t, hrun, hxs.trans (congrArg _ (List.eq_replicate_iff.2 ⟨hcount, hzero⟩))⟩

end Sys2Proof.Machine

namespace Sys2Proof.Machine

/-! ## When the internal events are enabled -/

theorem Psg.wakeEnabled_iff {p : Psg} : p.wakeEnabled = true ↔ p.worker = .idle ∧ p.syncPending = true := by
  simp only [Psg.wakeEnabled, Bool.and_eq_true, decide_eq_true_eq]

theorem Psg.stepEnabled_iff {p : Psg} : p.stepEnabled = true ↔ p.worker = .draining ∧ 16 ≤ p.credit := by
  simp only [Psg.stepEnabled, Bool.and_eq_true, decide_eq_true_eq]

theorem Psg.sleepEnabled_iff {p : Psg} : p.sleepEnabled = true ↔ p.worker = .draining ∧ p.credit < 16 := by
  simp only [Psg.sleepEnabled, Bool.and_eq_true, decide_eq_true_eq]

theorem Video.partEnabled_iff {c : Config} {v : Video} :
    v.partEnabled c = true ↔ v.txActive = true ∧ v.txPart < c.partCount := by
  simp only [Video.partEnabled, Bool.and_eq_true, decide_eq_true_eq]

/-- WAKE where it is enabled (R120). -/
theorem exec_wake_enabled {s : State} (hw : s.psg.worker = .idle) (hp : s.psg.syncPending = true) :
    exec .wake s = .next { s with psg := (s.psg.setSync false).setWorker .draining } :=
  if_pos (Psg.wakeEnabled_iff.2 ⟨hw, hp⟩)

/-- SLEEP where it is enabled (R128). -/
theorem exec_sleep_enabled {s : State} (hw : s.psg.worker = .draining) (hc : s.psg.credit < 16) :
    exec .sleep s = .next { s with psg := s.psg.setWorker .idle } :=
  if_pos (Psg.sleepEnabled_iff.2 ⟨hw, hc⟩)

/-- TXPART where it is enabled (R205). -/
theorem exec_txpart_enabled {s : State} (ha : s.video.txActive = true) (hp : s.video.txPart < s.cfg.partCount) :
    exec .txpart s = .next { s with
      video := s.video.nextPart
      out := s.out.emitTx ⟨s.video.partBytes s.cfg s.video.txBuf s.video.txPart, s.cfg.partSize + 1⟩ } :=
  if_pos (Video.partEnabled_iff.2 ⟨ha, hp⟩)

/-- Settles O19: WAKE writes the flag and the worker, SLEEP the worker. -/
theorem wakeAndSleepComplete : Obligations.WakeAndSleepComplete := by
  refine ⟨fun s hw hp => ?wake, fun s hw hc => ?sleep⟩
  case wake => rw [exec_wake_enabled hw hp, Psg.setSync, Psg.setWorker]
  case sleep => rw [exec_sleep_enabled hw hc, Psg.setWorker]

/-- A guarded event is refused exactly where its guard fails. -/
theorem guarded_eq_refused_iff {b : Bool} {o : Host.Outcome State Fault Refusal} {r : Refusal} (ho : o ≠ .refused r) :
    (if b then o else .refused r) = .refused r ↔ ¬ b = true := by
  cases b with
  | true => simpa using ho
  | false => simp

/-- STEP past its enabling condition is never refused as not enabled (U17). -/
theorem step_body_ne_notEnabled (s t : State) :
    (if s.cfg.callbackPeriod = 0 then Host.Outcome.refused Refusal.illegalConfiguration else .next t :
      Host.Outcome State Fault Refusal) ≠ .refused .notEnabled := by
  split <;> simp

/-- TXSTART is refused exactly in a transmission or with the slot empty (R204). -/
theorem exec_txstart_refused_iff {s : State} :
    exec .txstart s = .refused .notEnabled ↔ ¬ (s.video.txActive = false ∧ s.video.slot.isSome = true) := by
  show execTxstart s = _ ↔ _
  unfold execTxstart
  split
  next b ha hs => simp [ha, hs]
  next ha hs => simp [hs]
  next ha => simp [ha]

/-- Settles O34: each event is guarded by its enabling condition. -/
theorem internalEventsNeedTheirConditions : Obligations.InternalEventsNeedTheirConditions := by
  intro s
  refine ⟨?wake, ?step, ?sleep, exec_txstart_refused_iff, ?txpart, ?txend⟩
  case wake =>
    rw [← Psg.wakeEnabled_iff]
    exact guarded_eq_refused_iff (by simp)
  case step =>
    rw [← Psg.stepEnabled_iff]
    exact guarded_eq_refused_iff (step_body_ne_notEnabled s _)
  case sleep =>
    rw [← Psg.sleepEnabled_iff]
    exact guarded_eq_refused_iff (by simp)
  case txpart =>
    rw [← Video.partEnabled_iff]
    exact guarded_eq_refused_iff (by simp)
  case txend =>
    rw [← Video.endEnabled_iff]
    exact guarded_eq_refused_iff (by simp)

/-! ## RESET -/

/-- A first RESET with a legal configuration completes (R250). -/
theorem exec_reset_first {s : State} {c : Config} (hd : s.resetDone = false) (hl : c.Legal) :
    exec (.reset c) s = .next { State.resetWith c with env := s.env } := by
  show execReset c s = _
  rw [execReset, hd, if_neg Bool.false_ne_true, if_pos hl]

/-- Settles O46: the reset values of both halves. -/
theorem resetEstablishesState : Obligations.ResetEstablishesState := by
  intro s c hd hl
  refine ⟨_, exec_reset_first hd hl, rfl, rfl, rfl, fun k => ?tone, fun k => ?vol, rfl, rfl, rfl, rfl, rfl, rfl, rfl, rfl,
    rfl, rfl, rfl, rfl, rfl, rfl, rfl, rfl, rfl, rfl, rfl, rfl, rfl, rfl, Video.memRead_initial_prefix c,
    fun b i r hpos hr => Video.memRead_initial_payload c b i hpos hr⟩
  case tone => simp [State.resetWith, Psg.initial]
  case vol => simp [State.resetWith, Psg.initial]

/-- HOST's step runs the first event of its program's first line, where it is admitted (R99, R250). -/
theorem step_host_admitted {s : State} {line e : Instr} {more rest : List Instr} (ha : s.agent = .host)
    (hp : s.env.program = line :: rest) (hl : hostEvents line = e :: more) (hadm : s.admits e = true) :
    step s = exec e (s.takeTurn.setProgram (more ++ rest)) := by
  obtain ⟨env, hturn, hprog⟩ := s.takeTurn_eq
  have hadm' : s.takeTurn.admits e = true := by
    rw [hturn]
    cases e <;> exact hadm
  exact step_of_turn_event ((State.turn_host ha).trans
    (State.hostTurn_event (by rw [hturn]; exact hprog.trans hp) hl hadm'))

/-- The lines that stand for no HOST event are those that are no program lines (R98, R99). -/
theorem hostEvents_eq_nil_iff {line : Instr} : hostEvents line = [] ↔ isProgramLine line = false := by
  cases line <;> simp [hostEvents, isProgramLine]

/-- Only RESET's own line stands for a RESET (R99, R250). -/
theorem hostEvents_reset {line : Instr} {c : Config} {more : List Instr} (h : hostEvents line = .reset c :: more) :
    line = .reset c ∧ more = [] := by
  have hmem := hostEvents_mem h
  simp only [reduceCtorEq, Instr.reset.injEq, exists_false, false_or] at hmem
  obtain ⟨c', rfl, hline, hmore⟩ := hmem
  exact ⟨hline, hmore⟩

/-- A program line stands for a first HOST event. -/
theorem exists_hostEvent {line : Instr} (h : isProgramLine line = true) : ∃ e more, hostEvents line = e :: more :=
  List.exists_cons_of_ne_nil fun hnil => Bool.false_ne_true ((hostEvents_eq_nil_iff.1 hnil).symm.trans h)

/-- A turn that is refused is a step that is refused. -/
theorem step_of_turn_refused {s : State} {r : Refusal} (h : s.turn = .refused r) : step s = .refused r := by
  rw [step, h]

/-- A turn without an event is a step that only takes the turn (R240). -/
theorem step_of_turn_blocked {s t : State} (h : s.turn = .blocked t) : step s = .next t := by
  rw [step, h]

theorem State.takeTurn_program (s : State) : s.takeTurn.env.program = s.env.program := by
  obtain ⟨env, hturn, hprog⟩ := s.takeTurn_eq
  rw [hturn, hprog]

theorem State.takeTurn_resetDone (s : State) : s.takeTurn.resetDone = s.resetDone := by
  obtain ⟨env, hturn, -⟩ := s.takeTurn_eq
  rw [hturn]

/-- Before RESET nothing but RESET is admitted (R250). -/
theorem State.admits_beforeReset {s : State} {e : Instr} (hd : s.resetDone = false) :
    s.admits e = true ↔ ∃ c, e = .reset c := by
  cases e <;> simp [State.admits, hd]

/-- HOST's turn before RESET refuses every event but RESET (R250). -/
theorem step_host_beforeReset {s : State} {line e : Instr} {more rest : List Instr} (ha : s.agent = .host)
    (hd : s.resetDone = false) (hp : s.env.program = line :: rest) (hl : hostEvents line = e :: more)
    (he : ∀ c, e ≠ .reset c) : step s = .refused .beforeReset := by
  have hnot : ¬ s.takeTurn.admits e = true := by
    rw [State.admits_beforeReset (s.takeTurn_resetDone.trans hd)]
    exact fun ⟨c, hc⟩ => he c hc
  refine step_of_turn_refused ((State.turn_host ha).trans ?_)
  simp only [State.hostTurn, s.takeTurn_program, hp, hl]
  exact if_neg hnot

/-- Settles O47: RESET's own refusals, and what a step before RESET can be. -/
theorem resetIsSingleShot : Obligations.ResetIsSingleShot := by
  refine ⟨fun s c hd => ?second, fun s c hd hl => ?illegal, fun s c rest sched hd hl hs hp => ?first,
    fun s line rest hd ha hp hline hne => ?other, fun s t hd h => ?next⟩
  case second => exact if_pos hd
  case illegal =>
    show execReset c s = _
    rw [execReset, hd, if_neg Bool.false_ne_true, if_neg hl]
  case first =>
    have hstep := step_host_admitted (e := .reset c) (State.agent_cons hs) hp rfl rfl
    rw [hstep, State.takeTurn_cons hs]
    exact exec_reset_first hd hl
  case other =>
    obtain ⟨e, more, hl⟩ := exists_hostEvent hline
    refine step_host_beforeReset ha hd hp hl ?_
    rintro c rfl
    exact hne c (hostEvents_reset hl).1
  case next =>
    rcases step_next h with rfl | ⟨line, rest, e, more, -, hp, hl, hadm, hexec⟩ | ⟨hdone, -⟩
    · obtain ⟨env, hturn, hprog⟩ := s.takeTurn_eq
      rw [hturn]
      exact .inr ⟨rfl, hprog⟩
    · obtain ⟨c, rfl⟩ := (State.admits_beforeReset hd).1 hadm
      obtain ⟨rfl, rfl⟩ := hostEvents_reset hl
      obtain ⟨-, hlegal, rfl⟩ := exec_reset_next hexec
      exact .inl ⟨c, rest, hp, hlegal, rfl, rfl, rfl⟩
    · rw [hd] at hdone
      cases hdone

/-- Settles O60: a line without events is refused on HOST's turn whether or not RESET has happened. -/
theorem nonHostLinesAreRefused : Obligations.NonHostLinesAreRefused := by
  refine ⟨fun s line rest ha hp hline => ?refused, fun line hline hnil => ?event⟩
  case refused =>
    refine step_of_turn_refused ((State.turn_host ha).trans ?_)
    simp only [State.hostTurn, s.takeTurn_program, hp, hostEvents_eq_nil_iff.2 hline]
  case event => exact Bool.false_ne_true ((hostEvents_eq_nil_iff.1 hnil).symm.trans hline)

/-! ## Outputs and pseudo-instructions -/

/-- Settles O49: an emission is one append to the history of its port. -/
theorem outputsAreEmitted : Obligations.OutputsAreEmitted := by
  refine ⟨fun s a b c d => ?sample, fun s bytes len => ?tx⟩
  case sample => show execSample a b c d s = _; rw [execSample, Outputs.emitSamples]
  case tx => show execTx bytes len s = _; rw [execTx, Outputs.emitTx]

/-- A sequence of writes, with its bytes (R110, R111). -/
theorem runEvents_wr (bs : List Byte) (s : State) : runEvents (bs.map .wr) s = .next (bs.foldl State.write s) := by
  induction bs generalizing s with
  | nil => rfl
  | cons b bs ih => exact (runEvents_cons (exec_wr b s)).trans (ih _)

/-- Settles O50: each meaning performs the writes, SYNC and TICK of its expansion in order. -/
theorem pseudoInstructionsExpand : Obligations.PseudoInstructionsExpand := by
  intro s
  refine ⟨fun c p => ⟨_, rfl, ?tone⟩, fun c v => ⟨_, rfl, ?vol⟩, ⟨_, rfl, ?silence⟩, fun b => ⟨_, rfl, rfl⟩,
    ⟨_, rfl, rfl⟩⟩
  case tone =>
    rw [← encodeCommand_ltone, ← encodeCommand_data]
    exact runEvents_wr [_, _] s
  case vol =>
    rw [← encodeCommand_lvol]
    exact runEvents_wr [_] s
  case silence => exact runEvents_wr [_, _, _, _] s

/-! ## Decoded commands in the machine's step -/

/-- PSGW's step with a byte at the head of the queue decodes and executes it, then finishes the STEP (R122 to R124). -/
theorem step_runs_head {s : State} {b : Byte} {rest : List Byte} {sched : List Agent} (hd : s.resetDone = true)
    (hs : s.env.schedule = .psgw :: sched) (hw : s.psg.worker = .draining) (hc : 16 ≤ s.psg.credit)
    (hp : s.cfg.callbackPeriod ≠ 0) (hq : s.psg.q = b :: rest) :
    ∃ u : State,
      exec (decodeByte b) { s with psg := { s.psg with q := rest }, env := { s.env with schedule := sched } } = .next u ∧
      step s = .next u.afterCommand := by
  obtain ⟨-, hhead⟩ := stepExecutesHeadCommand { s with env := { s.env with schedule := sched } } hw hc hp
  obtain ⟨u, hu, -, hstep, -⟩ := hhead b rest hq
  exact ⟨u, hu, (step_psgw hd hs (State.psgwTurn_step hw hc)).trans hstep⟩

/-- Settles O52; with `withFetchWord` the byte, the credit and PSGW's turn are in place. -/
theorem stepRunsDecodedCommand : Obligations.StepRunsDecodedCommand := by
  refine ⟨fun s b rest sched hd hs hw hc hp hq => step_runs_head hd hs hw hc hp hq, fun s w hp => ?fetch⟩
  case fetch =>
    obtain ⟨u, hu, hstep⟩ := step_runs_head (s := s.withFetchWord 8 w) rfl rfl rfl (Nat.le_max_right _ _) hp rfl
    exact ⟨_, u, rfl, hu, hstep⟩

/-- The bit a first clock shifts out (R34, R251). -/
theorem lfsrReset_low : lfsrReset[0] = false := by decide

/-- The noise generator's first advance from the reset values (R255): the counter crosses, the flip-flop is set and
the LFSR clocks its one bit down. -/
theorem Psg.noiseAdvance_first (c : Config) {p : Psg} (hcnt : p.ncnt = 0) (hff : p.nff = false) (hrate : p.nrate = 0)
    (hmode : p.nmode = 0) (hlfsr : p.lfsr = lfsrReset) :
    (p.noiseAdvance c).ncnt = ((16 * c.noiseMult : Nat) : Int) ∧ (p.noiseAdvance c).nff = true ∧
    (p.noiseAdvance c).lfsr = 0x4000 ∧ (p.noiseAdvance c).npol = false := by
  rw [p.noiseAdvance_sets c (by omega) hff, feedback_periodic c _ hmode, hlfsr]
  refine ⟨?reload, rfl, ?lfsr, ?polarity⟩
  case reload =>
    rw [Psg.setLfsr_ncnt, Psg.setNoiseCount_ncnt, noiseReload, hrate]
    rfl
  case lfsr =>
    rw [Psg.setLfsr_lfsr, lfsrReset_low]
    rfl
  case polarity => exact lfsrReset_low

/-- PSGW draining right after RESET, with a step's credit and `k` more (R255). -/
def State.drainingAfterReset (c : Config) (k : Nat) : State :=
  { State.resetWith c with psg := { Psg.initial c with worker := .draining, credit := k + 16 } }

/-- Settles O48: the first STEP on the reset values, generator by generator. -/
theorem firstStepAfterReset : Obligations.FirstStepAfterReset := by
  intro c k hlegal
  obtain ⟨t, h, -, -, hcnt, hff, hlfsr, hpol⟩ := exec_step_noise (s := State.drainingAfterReset c k) rfl
    (Nat.le_add_left _ _) (Nat.ne_of_gt hlegal.1)
  have hempty : (State.drainingAfterReset c k).psg.dequeue c = (State.drainingAfterReset c k).psg :=
    Psg.dequeue_empty c _ rfl
  obtain ⟨hcnt', hff', hlfsr', hpol'⟩ :=
    Psg.noiseAdvance_first c (p := (State.drainingAfterReset c k).psg) rfl rfl rfl rfl rfl
  rw [← hempty] at hcnt' hff' hlfsr' hpol'
  obtain ⟨hperiod, hvol⟩ := exec_step_empty_queue h rfl
  obtain ⟨-, hcredit, -⟩ := exec_step_frame h
  obtain ⟨hsamples, hacc, -⟩ := exec_step_strobes h
  refine ⟨t, h, fun j => ?tone, hcnt.trans hcnt', hff.trans hff', hlfsr.trans hlfsr', hpol.trans hpol',
    Nat.add_right_cancel hcredit, ?acc, fun x hx => ?silent⟩
  case tone =>
    have hstopped : (State.drainingAfterReset c k).psg.tcnt[j] = 0 := by simp [State.drainingAfterReset, Psg.initial]
    have hpol0 : (State.drainingAfterReset c k).psg.tpol[j] = c.polarityReset := by
      simp [State.drainingAfterReset, Psg.initial]
    have hzero : t.psg.period[j] = 0 := by simp [hperiod, State.drainingAfterReset, Psg.initial]
    obtain ⟨hcntj, hpolj⟩ := exec_step_tone_stays h (c := j) (by simp [hstopped, hzero])
    exact ⟨hcntj.trans hstopped, hpolj.trans hpol0⟩
  case acc => exact hacc.trans (by rw [State.drainingAfterReset, Psg.initial, Nat.zero_add]; rfl)
  case silent =>
    rw [hsamples, Psg.samples_silent _ fun c' => by simp [hvol, State.drainingAfterReset, Psg.initial]] at hx
    exact List.eq_of_mem_replicate hx

end Sys2Proof.Machine

namespace Sys2Proof.Machine

/-! ## The video events in their two forms -/

/-- PIXWR in range is one store into the drawable buffer (R200). -/
theorem exec_pixwr_inRange {s : State} {i o : Nat} (hi : i < s.cfg.nParts) (ho : o < s.cfg.partSize) (v : Byte) :
    exec (.pixwr i o v) s = .next { s with video := s.video.memWrite s.cfg s.video.draw i (o + 1) v } :=
  if_pos ⟨hi, ho⟩

/-- Settles O37: a read at the address stored gives the byte, at any other the old one. -/
theorem pixwrStoresOneByte : Obligations.PixwrStoresOneByte := fun s i o v hi ho =>
  ⟨_, exec_pixwr_inRange hi ho v, rfl, Video.memRead_memWrite_same s.cfg s.video s.video.draw i (o + 1) v,
    fun _ ha => Memory.read_write_ne s.cfg s.video.mem v ha⟩

/-- Settles O38: out of range one half of the guard fails. -/
theorem pixwrOutOfRangeIsRefused : Obligations.PixwrOutOfRangeIsRefused := by
  intro s i o v hout
  exact if_neg fun ⟨hi, ho⟩ => hout.elim (Nat.not_le_of_lt hi) (Nat.not_le_of_lt ho)

/-- Settles O40: with a frame in flight the shared tick is the drop event. -/
theorem tickDropsFrameInFlight : Obligations.TickDropsFrameInFlight := by
  intro s hflight
  rw [exec_tick, s.video.tick_dropped hflight, Video.dropFrame]

/-- Settles O42: the transfer is the part's bytes, one for each real offset. -/
theorem txpartSendsOnePart : Obligations.TxpartSendsOnePart := by
  intro s ha hp
  exact ⟨_, _, exec_txpart_enabled ha hp, rfl, Video.partBytes_length _ _ _ _,
    fun r hr => Video.partBytes_getElem _ _ _ _ hr⟩

/-! ## A whole transmission -/

/-- The transfer of part `i` of buffer `b` (R205). -/
def Video.transfer (c : Config) (v : Video) (b : Fin 2) (i : Nat) : Transfer := ⟨v.partBytes c b i, c.partSize + 1⟩

/-- The state with the first `n` parts of the buffer in transmission sent (R205). -/
def State.partsSent (s : State) (n : Nat) : State :=
  { s with
    video := { s.video with txPart := n }
    out := { s.out with
      transfers := s.out.transfers ++ (List.range n).map (s.video.transfer s.cfg s.video.txBuf) } }

/-- TXPART sends one more part. -/
theorem exec_txpart_partsSent {s : State} {k : Nat} (ha : s.video.txActive = true) (hk : k < s.cfg.partCount) :
    exec .txpart (s.partsSent k) = .next (s.partsSent (k + 1)) := by
  refine (exec_txpart_enabled (s := s.partsSent k) ha hk).trans ?_
  simp only [State.partsSent, List.range_succ, List.map_append, List.map_singleton, ← List.append_assoc]
  rfl

/-- After TXSTART the `PART_COUNT` TXPARTs and the TXEND complete (R205, R206). -/
theorem runEvents_txparts_txend {s : State} (ha : s.video.txActive = true) (hp : s.video.txPart = 0) :
    runEvents (List.replicate s.cfg.partCount .txpart ++ [.txend]) s =
      .next { s.partsSent s.cfg.partCount with video := (s.partsSent s.cfg.partCount).video.endTx } := by
  have hstart : s = s.partsSent 0 := by
    rw [State.partsSent, ← hp, hp, List.range_zero, List.map_nil, List.append_nil, ← hp]
  obtain ⟨t, hrun, rfl⟩ := runEvents_replicate (Q := fun k u => u = s.partsSent k) s.cfg.partCount hstart
    fun k u hk hu => ⟨_, hu ▸ exec_txpart_partsSent ha hk, rfl⟩
  rw [runEvents_append hrun]
  exact runEvents_cons (exec_txend_enabled (s := s.partsSent s.cfg.partCount) ha rfl)

/-- A transmission is TXSTART and what follows it (R132). -/
theorem transmission_eq (n : Nat) : transmission n = .txstart :: (List.replicate n .txpart ++ [.txend]) := rfl

/-- The state with the whole frame of buffer `b` sent and no frame in flight (R204 to R206). -/
def State.frameSent (s : State) (b : Fin 2) : State :=
  { s with
    video := { s.video with slot := none, txActive := false, txBuf := b, txPart := s.cfg.partCount }
    out := { s.out with
      transfers := s.out.transfers ++ (List.range s.cfg.partCount).map (s.video.transfer s.cfg b) } }

/-- From a handed-over buffer the whole transmission completes (R204 to R206). -/
theorem runEvents_transmission {s : State} {b : Fin 2} (ha : s.video.txActive = false) (hs : s.video.slot = some b) :
    runEvents (transmission s.cfg.partCount) s = .next (s.frameSent b) := by
  rw [transmission_eq, runEvents_cons (exec_txstart_enabled ha hs)]
  exact runEvents_txparts_txend (s := { s with video := s.video.takeSlot b }) rfl rfl

/-- Settles O44: the parts are those of the buffer taken, sent one by one. -/
theorem transmissionSendsWholeFrame : Obligations.TransmissionSendsWholeFrame := fun s b ha hs =>
  ⟨s.frameSent b, runEvents_transmission ha hs, rfl, rfl, rfl, rfl⟩

/-! ## Rounds of ticks and transmissions -/

/-- One round from `u` to `v`: one accepted tick and its transmission, with `d` dropped ticks (R209). -/
structure State.Round (d : Nat) (u v : State) : Prop where
  cfg : v.cfg = u.cfg
  slot : v.video.slot = none
  inactive : v.video.txActive = false
  drops : v.video.droppedFrames = u.video.droppedFrames + d
  swap : v.video.draw = 1 - u.video.draw

/-- The buffer that is drawable after `k` swaps (R42). -/
def drawAfter (b : Fin 2) (k : Nat) : Fin 2 := if k % 2 = 0 then b else 1 - b

theorem drawAfter_succ (b : Fin 2) (k : Nat) : drawAfter b (k + 1) = 1 - drawAfter b k := by
  unfold drawAfter
  rcases Nat.mod_two_eq_zero_or_one k with hk | hk
  · rw [if_pos hk, if_neg (show ¬ (k + 1) % 2 = 0 by omega)]
  · rw [if_neg (show ¬ k % 2 = 0 by omega), if_pos (show (k + 1) % 2 = 0 by omega)]
    exact (one_sub_otherBuf b).symm

/-- `u` is `k` rounds after `s`. -/
structure State.AfterRounds (s : State) (d k : Nat) (u : State) : Prop where
  cfg : u.cfg = s.cfg
  slot : u.video.slot = none
  inactive : u.video.txActive = false
  drops : u.video.droppedFrames = s.video.droppedFrames + d * k
  draw : u.video.draw = drawAfter s.video.draw k

theorem State.AfterRounds.succ {s u v : State} {d k : Nat} (hu : s.AfterRounds d k u) (hv : State.Round d u v) :
    s.AfterRounds d (k + 1) v where
  cfg := hv.cfg.trans hu.cfg
  slot := hv.slot
  inactive := hv.inactive
  drops := by rw [hv.drops, hu.drops, Nat.mul_succ, Nat.add_assoc]
  draw := by rw [hv.swap, hu.draw, drawAfter_succ]

/-- `n` rounds drop `d` frames each and swap the buffers each (R209). -/
theorem runEvents_ticks {s : State} {is : List Instr} (d n : Nat) (hs : s.video.slot = none)
    (ha : s.video.txActive = false)
    (hround : ∀ u : State, u.cfg = s.cfg → u.video.slot = none → u.video.txActive = false →
      ∃ v, runEvents is u = .next v ∧ State.Round d u v) :
    ∃ t, runEvents (List.replicate n is).flatten s = .next t ∧
      t.video.droppedFrames = s.video.droppedFrames + d * n ∧ t.video.draw = drawAfter s.video.draw n := by
  obtain ⟨t, hrun, hafter⟩ := runEvents_rounds (Q := s.AfterRounds d) n ⟨rfl, hs, ha, rfl, rfl⟩ fun k u _ hu => by
    obtain ⟨v, hv, hd⟩ := hround u hu.cfg hu.slot hu.inactive
    exact ⟨v, hv, hu.succ hd⟩
  exact ⟨t, hrun, hafter.drops, hafter.draw⟩

section
variable {u : State} (hs : u.video.slot = none) (ha : u.video.txActive = false)
include hs ha

/-- TICK from no frame in flight hands the drawable buffer over (R202). -/
theorem exec_tick_accepted : exec .tick u = .next { u with video := u.video.handOver } := by
  rw [exec_tick, u.video.tick_accepted hs ha]

/-- A tick and its whole transmission: no drop. -/
theorem round_undisturbed :
    ∃ v, runEvents (.tick :: transmission u.cfg.partCount) u = .next v ∧ State.Round 0 u v :=
  ⟨_, (runEvents_cons (exec_tick_accepted hs ha)).trans
    (runEvents_transmission (s := { u with video := u.video.handOver }) ha rfl), rfl, rfl, rfl, rfl, rfl⟩

/-- A second tick that finds the frame in the slot: one drop. -/
theorem round_slotOccupied :
    ∃ v, runEvents (.tick :: .tick :: transmission u.cfg.partCount) u = .next v ∧ State.Round 1 u v :=
  ⟨_, (runEvents_cons (exec_tick_accepted hs ha)).trans ((runEvents_cons (tickDropsFrameInFlight _ (.inl rfl))).trans
    (runEvents_transmission (s := { u with video := u.video.handOver.dropFrame }) ha rfl)), rfl, rfl, rfl, rfl, rfl⟩

/-- A second tick that finds the transmission active: one drop. -/
theorem round_transmissionActive :
    ∃ v, runEvents (.tick :: .txstart :: .tick :: (List.replicate u.cfg.partCount .txpart ++ [.txend])) u = .next v ∧
      State.Round 1 u v :=
  ⟨_, (runEvents_cons (exec_tick_accepted hs ha)).trans
    ((runEvents_cons (exec_txstart_enabled (s := { u with video := u.video.handOver }) ha rfl)).trans
      ((runEvents_cons (tickDropsFrameInFlight _ (.inr rfl))).trans
        (runEvents_txparts_txend (s := { u with video := (u.video.handOver.takeSlot u.video.draw).dropFrame }) rfl rfl))),
    rfl, rfl, rfl, rfl, rfl⟩

end

/-- Settles O45: each of the three schedules is `n` equal rounds. -/
theorem dropCountFollowsStalls : Obligations.DropCountFollowsStalls := by
  intro s n hs ha
  refine ⟨?undisturbed, ?slotOccupied, ?transmissionActive⟩
  case undisturbed =>
    obtain ⟨t, hrun, hdrops, hdraw⟩ := runEvents_ticks 0 n hs ha
      fun u hcfg hslot hinactive => hcfg ▸ round_undisturbed hslot hinactive
    exact ⟨t, hrun, by rw [hdrops, Nat.zero_mul, Nat.add_zero], hdraw⟩
  case slotOccupied =>
    obtain ⟨t, hrun, hdrops, hdraw⟩ := runEvents_ticks 1 n hs ha
      fun u hcfg hslot hinactive => hcfg ▸ round_slotOccupied hslot hinactive
    exact ⟨t, hrun, by rw [hdrops, Nat.one_mul], hdraw⟩
  case transmissionActive =>
    obtain ⟨t, hrun, hdrops, hdraw⟩ := runEvents_ticks 1 n hs ha
      fun u hcfg hslot hinactive => hcfg ▸ round_transmissionActive hslot hinactive
    exact ⟨t, hrun, by rw [hdrops, Nat.one_mul], hdraw⟩

/-! ## The two halves share no state -/

/-- The outcome with another video state in place of its own. -/
def outcomeWithVideo (v : Video) : Host.Outcome State Fault Refusal → Host.Outcome State Fault Refusal
  | .next t => .next { t with video := v }
  | .fault r => .fault r
  | .refused r => .refused r

/-- The outcome with another PSG state in place of its own. -/
def outcomeWithPsg (p : Psg) : Host.Outcome State Fault Refusal → Host.Outcome State Fault Refusal
  | .next t => .next { t with psg := p }
  | .fault r => .fault r
  | .refused r => .refused r

/-- A PSG event acts the same under every video state and passes it on (R20). -/
theorem exec_withVideo {i : Instr} (hi : isPsgEvent i = true) (s : State) (v : Video) :
    exec i { s with video := v } = outcomeWithVideo v (exec i s) := by
  cases i
  case tick | pixwr | txstart | txpart | txend | reset | sample | tx | endframe => cases hi
  case wake =>
    show execWake _ = outcomeWithVideo v (execWake s)
    unfold execWake
    split <;> rfl
  case sleep =>
    show execSleep _ = outcomeWithVideo v (execSleep s)
    unfold execSleep
    split <;> rfl
  case step =>
    show execStep _ = outcomeWithVideo v (execStep s)
    unfold execStep
    split
    · dsimp only
      split <;> rfl
    · rfl
  case dataTone d =>
    show execDataTone d _ = outcomeWithVideo v (execDataTone d s)
    unfold execDataTone
    dsimp only
    split <;> rfl
  case dataVol n =>
    show execDataVol n _ = outcomeWithVideo v (execDataVol n s)
    unfold execDataVol
    dsimp only
    split <;> rfl
  case dataNoise m r =>
    show execDataNoise m r _ = outcomeWithVideo v (execDataNoise m r s)
    unfold execDataNoise
    dsimp only
    split <;> rfl
  all_goals rfl

/-- A video event acts the same under every PSG state and passes it on (R20). -/
theorem exec_withPsg {i : Instr} (hi : isVideoEvent i = true) (s : State) (p : Psg) :
    exec i { s with psg := p } = outcomeWithPsg p (exec i s) := by
  cases i
  case tick => rfl
  case pixwr i o x =>
    show execPixwr i o x _ = outcomeWithPsg p (execPixwr i o x s)
    unfold execPixwr
    dsimp only
    split <;> rfl
  case txstart =>
    show execTxstart _ = outcomeWithPsg p (execTxstart s)
    unfold execTxstart
    dsimp only
    split <;> rfl
  case txpart =>
    show execTxpart _ = outcomeWithPsg p (execTxpart s)
    unfold execTxpart
    dsimp only
    split <;> rfl
  case txend =>
    show execTxend _ = outcomeWithPsg p (execTxend s)
    unfold execTxend
    dsimp only
    split <;> rfl
  all_goals cases hi

/-- Settles O56: replacing the other half commutes with the event, and with the half itself put in place it says that
the event keeps it. -/
theorem psgAndVideoAreIndependent : Obligations.PsgAndVideoAreIndependent := by
  refine ⟨fun i s t v hi h => ⟨?videoKept, ?videoFree⟩, fun i s t p hi h => ⟨?psgKept, ?psgFree⟩⟩
  case videoKept =>
    have hself := exec_withVideo hi s s.video
    rw [h, outcomeWithVideo] at hself
    exact (congrArg State.video (Host.Outcome.next.inj hself) :)
  case videoFree => rw [exec_withVideo hi, h, outcomeWithVideo]
  case psgKept =>
    have hself := exec_withPsg hi s s.psg
    rw [h, outcomeWithPsg] at hself
    exact (congrArg State.psg (Host.Outcome.next.inj hself) :)
  case psgFree => rw [exec_withPsg hi, h, outcomeWithPsg]

end Sys2Proof.Machine

namespace Sys2Proof.Machine

/-! ## Turns that pass -/

/-- A blocked agent's turn keeps HOST's program and moves nothing but the schedule (R240). -/
theorem step_passes {s : State} (h : step s = .next s.takeTurn) :
    ∃ e : Env, step s = .next { s with env := e } ∧ e.program = s.env.program := by
  obtain ⟨e, hturn, hprog⟩ := s.takeTurn_eq
  exact ⟨e, h.trans (congrArg _ hturn), hprog⟩

/-- PSGW has no event in Idle without a SYNC pending (R120). -/
theorem State.psgwTurn_blocked {s : State} (hw : s.psg.worker = .idle) (hp : s.psg.syncPending = false) :
    s.psgwTurn = .blocked s := by
  simp [State.psgwTurn, Psg.wakeEnabled, Psg.stepEnabled, Psg.sleepEnabled, hw, hp]

/-- VIDW has no event with the slot empty and no transmission active (R204). -/
theorem State.vidwTurn_blocked {s : State} (hs : s.video.slot = none) (ha : s.video.txActive = false) :
    s.vidwTurn = .blocked s := by
  simp [State.vidwTurn, hs, ha]

theorem step_psgw_passes {s : State} (h : s.agent = .psgw) (hw : s.psg.worker = .idle) (hp : s.psg.syncPending = false) :
    step s = .next s.takeTurn := by
  obtain ⟨e, hturn, -⟩ := s.takeTurn_eq
  refine step_of_turn_blocked ?_
  rw [State.turn, h, hturn]
  dsimp only
  split
  · exact State.psgwTurn_blocked hw hp
  · rfl

theorem step_vidw_passes {s : State} (h : s.agent = .vidw) (hs : s.video.slot = none) (ha : s.video.txActive = false) :
    step s = .next s.takeTurn := by
  obtain ⟨e, hturn, -⟩ := s.takeTurn_eq
  refine step_of_turn_blocked ?_
  rw [State.turn, h, hturn]
  dsimp only
  split
  · exact State.vidwTurn_blocked hs ha
  · rfl

theorem step_host_passes {s : State} (h : s.agent = .host) (hp : s.env.program = []) : step s = .next s.takeTurn := by
  refine step_of_turn_blocked ((State.turn_host h).trans ?_)
  simp only [State.hostTurn, s.takeTurn_program, hp]

/-- Quiescence, condition by condition (R262). -/
theorem State.quiescent_iff {s : State} :
    s.quiescent = true ↔
      s.psg.worker = .idle ∧ s.psg.syncPending = false ∧ s.video.txActive = false ∧ s.video.slot = none := by
  simp [State.quiescent, and_assoc]

/-- Settles O57: each agent's turn passes where it has no event, and in a quiescent state both workers have none. -/
theorem quiescentWorkersDoNothing : Obligations.QuiescentWorkersDoNothing := by
  refine ⟨fun s h hw hp => step_passes (step_psgw_passes h hw hp), fun s h hs ha => step_passes (step_vidw_passes h hs ha),
    fun s h hp => step_passes (step_host_passes h hp), fun s hquiet hnot => step_passes ?quiescent⟩
  case quiescent =>
    obtain ⟨hw, hp, ha, hs⟩ := State.quiescent_iff.1 hquiet
    cases h : s.agent with
    | host => exact absurd h hnot
    | psgw => exact step_psgw_passes h hw hp
    | vidw => exact step_vidw_passes h hs ha

/-! ## A drain pass -/

/-- STEP leaves RESET done, the configuration, the video state, the TX history, the program and the schedule. -/
theorem exec_step_rest {s t : State} (h : exec .step s = .next t) :
    t.resetDone = s.resetDone ∧ t.cfg = s.cfg ∧ t.video = s.video ∧ t.out.transfers = s.out.transfers ∧ t.env = s.env := by
  obtain ⟨-, -, -, rfl⟩ := exec_step_next_eq h
  exact ⟨rfl, rfl, rfl, rfl, rfl⟩

/-- A drain pass with `n` whole steps of credit, by induction on `n`: a STEP with credit for more, else the SLEEP. -/
theorem run_drainPass {n : Nat} {s : State} {rest : List Agent} (hd : s.resetDone = true)
    (hw : s.psg.worker = .draining) (hp : s.cfg.callbackPeriod ≠ 0) (hn : s.psg.credit / 16 = n)
    (hs : s.env.schedule = List.replicate (n + 1) .psgw ++ rest) :
    ∃ t : State, Sys2Proof.core.run (n + 1) s = .next t ∧ t.psg.worker = .idle ∧ t.psg.credit = s.psg.credit % 16 ∧
      t.psg.q = s.psg.q.drop n ∧ t.env.schedule = rest := by
  rw [List.replicate_succ, List.cons_append] at hs
  induction n generalizing s with
  | zero =>
    have hc : s.psg.credit < 16 := by omega
    have hstep := (step_psgw hd hs (State.psgwTurn_sleep hw hc)).trans (exec_sleep_enabled hw hc)
    exact ⟨_, run_succ 0 hstep, rfl, (Nat.mod_eq_of_lt hc).symm, rfl, rfl⟩
  | succ n ih =>
    have hc : 16 ≤ s.psg.credit := by omega
    obtain ⟨u, hu⟩ := exec_step_completes
      (s := { s with env := { s.env with schedule := List.replicate (n + 1) .psgw ++ rest } }) hw hc hp
    obtain ⟨hdone, hcfg, -, -, henv⟩ := exec_step_rest hu
    obtain ⟨hworker, -, -⟩ := exec_step_worker hu
    obtain ⟨-, hcredit, -⟩ := exec_step_frame hu
    have hqueue := exec_step_queue hu
    dsimp only at hdone hcfg henv hworker hcredit hqueue
    obtain ⟨t, hrun, hidle, htcredit, htq, hsched⟩ := ih (s := u) (hdone.trans hd) (hworker.trans hw) (hcfg ▸ hp)
      (by omega) (by rw [henv, List.replicate_succ, List.cons_append])
    refine ⟨t, (run_succ (n + 1) ((step_psgw hd hs (State.psgwTurn_step hw hc)).trans hu)).trans hrun, hidle, by omega,
      ?_, hsched⟩
    rw [htq, hqueue, List.drop_tail]

/-- Settles O58. -/
theorem drainPassTerminates : Obligations.DrainPassTerminates := fun _ _ hd hw hp hs => run_drainPass hd hw hp rfl hs

/-! ## A frame in flight is finished -/

/-- The turns VIDW still needs for the frame in flight (R204 to R206). -/
def Video.turnsLeft (c : Config) (v : Video) : Nat :=
  if v.txActive then c.partCount - v.txPart + 1 else if v.slot.isSome then c.partCount + 2 else 0

/-- The parts of the frame in flight VIDW has still to send (R205). -/
def Video.partsLeft (c : Config) (v : Video) : Nat :=
  if v.txActive then c.partCount - v.txPart else if v.slot.isSome then c.partCount else 0

/-- HOST has performed its last event, and at most one frame is in flight, with no more parts sent than it has. -/
structure State.HostDone (s : State) : Prop where
  done : s.resetDone = true
  period : s.cfg.callbackPeriod ≠ 0
  program : s.env.program = []
  oneFrame : s.video.txActive = true → s.video.slot = none ∧ s.video.txPart ≤ s.cfg.partCount

/-- From `s` to `u` VIDW has had `n` turns: the turns left fall by `n`, and each part is sent or still to be sent. -/
structure State.Progress (n : Nat) (s u : State) : Prop where
  hostDone : u.HostDone
  cfg : u.cfg = s.cfg
  turns : u.video.turnsLeft s.cfg = s.video.turnsLeft s.cfg - n
  parts : u.out.transfers.length + u.video.partsLeft s.cfg = s.out.transfers.length + s.video.partsLeft s.cfg

theorem State.Progress.trans {m n : Nat} {s u t : State} (h : State.Progress m s u) (k : State.Progress n u t) :
    State.Progress (m + n) s t where
  hostDone := k.hostDone
  cfg := k.cfg.trans h.cfg
  turns := by
    have ht := k.turns
    rw [h.cfg, h.turns] at ht
    omega
  parts := by
    have hp := k.parts
    rw [h.cfg] at hp
    exact hp.trans h.parts

/-- A turn that leaves the video half, the transfers and HOST's program is no progress and no loss. -/
theorem State.HostDone.progress_zero {s u : State} (h : s.HostDone) (hd : u.resetDone = s.resetDone)
    (hcfg : u.cfg = s.cfg) (hv : u.video = s.video) (ht : u.out.transfers = s.out.transfers) (hp : u.env.program = s.env.program) :
    State.Progress 0 s u := by
  refine ⟨⟨hd.trans h.done, hcfg ▸ h.period, hp.trans h.program, ?_⟩, hcfg, by rw [hv, Nat.sub_zero], by rw [hv, ht]⟩
  rw [hv, hcfg]
  exact h.oneFrame

section
variable {s : State} {sched : List Agent} (h : s.HostDone)
include h

/-- HOST's turn passes. -/
theorem State.HostDone.host_turn (hs : s.env.schedule = .host :: sched) :
    ∃ u, step s = .next u ∧ State.Progress 0 s u ∧ u.env.schedule = sched :=
  ⟨_, (step_host_passes (State.agent_cons hs) h.program).trans (congrArg _ (State.takeTurn_cons hs)),
    h.progress_zero rfl rfl rfl rfl rfl, rfl⟩

/-- PSGW's turn is one of its events or passes; none touches the video half (R20). -/
theorem State.HostDone.psgw_turn (hs : s.env.schedule = .psgw :: sched) :
    ∃ u, step s = .next u ∧ State.Progress 0 s u ∧ u.env.schedule = sched := by
  cases hw : s.psg.worker with
  | idle =>
    cases hp : s.psg.syncPending with
    | false =>
      exact ⟨_, (step_psgw_passes (State.agent_cons hs) hw hp).trans (congrArg _ (State.takeTurn_cons hs)),
        h.progress_zero rfl rfl rfl rfl rfl, rfl⟩
    | true =>
      exact ⟨_, (step_psgw h.done hs (State.psgwTurn_wake hw hp)).trans (exec_wake_enabled hw hp),
        h.progress_zero rfl rfl rfl rfl rfl, rfl⟩
  | draining =>
    rcases Nat.lt_or_ge s.psg.credit 16 with hc | hc
    · exact ⟨_, (step_psgw h.done hs (State.psgwTurn_sleep hw hc)).trans (exec_sleep_enabled hw hc),
        h.progress_zero rfl rfl rfl rfl rfl, rfl⟩
    · obtain ⟨u, hu⟩ := exec_step_completes (s := { s with env := { s.env with schedule := sched } }) hw hc h.period
      obtain ⟨hdone, hcfg, hvideo, htransfers, henv⟩ := exec_step_rest hu
      exact ⟨u, (step_psgw h.done hs (State.psgwTurn_step hw hc)).trans hu,
        h.progress_zero hdone hcfg hvideo htransfers (by rw [henv]), by rw [henv]⟩

/-- VIDW's turn is the next event of the frame in flight, or passes when there is none (R204 to R206). -/
theorem State.HostDone.vidw_turn (hs : s.env.schedule = .vidw :: sched) :
    ∃ u, step s = .next u ∧ State.Progress 1 s u ∧ u.env.schedule = sched := by
  cases ha : s.video.txActive with
  | true =>
    obtain ⟨hslot, hle⟩ := h.oneFrame ha
    rcases Nat.lt_or_eq_of_le hle with hlt | heq
    · refine ⟨_, (step_vidw h.done hs (State.vidwTurn_txpart ha hlt)).trans (exec_txpart_enabled ha hlt),
        ⟨⟨h.done, h.period, h.program, fun _ => ⟨hslot, hlt⟩⟩, rfl, ?turns, ?parts⟩, rfl⟩
      case turns =>
        simp only [Video.turnsLeft, Video.nextPart_txActive, Video.nextPart_txPart, ha, if_true]
        omega
      case parts =>
        simp only [Video.partsLeft, Video.nextPart_txActive, Video.nextPart_txPart, ha, if_true, Outputs.emitTx,
          List.length_append, List.length_singleton]
        omega
    · refine ⟨_, (step_vidw h.done hs (State.vidwTurn_txend ha heq)).trans (exec_txend_enabled ha heq),
        ⟨⟨h.done, h.period, h.program, fun hact => absurd hact Bool.false_ne_true⟩, rfl, ?_, ?_⟩, rfl⟩
      · simp [Video.turnsLeft, ha, hslot, heq]
      · simp [Video.partsLeft, ha, hslot, heq]
  | false =>
    cases hslot : s.video.slot with
    | some b =>
      have hsome : s.video.slot.isSome = true := by rw [hslot]; rfl
      refine ⟨_, (step_vidw h.done hs (State.vidwTurn_txstart ha hsome)).trans (exec_txstart_enabled ha hslot),
        ⟨⟨h.done, h.period, h.program, fun _ => ⟨rfl, Nat.zero_le _⟩⟩, rfl, ?_, ?_⟩, rfl⟩
      · simp [Video.turnsLeft, ha, hslot]
      · simp [Video.partsLeft, ha, hslot]
    | none =>
      obtain ⟨hdone, hcfg, -, hparts⟩ :=
        h.progress_zero (u := { s with env := { s.env with schedule := sched } }) rfl rfl rfl rfl rfl
      exact ⟨_, (step_vidw_passes (State.agent_cons hs) hslot ha).trans (congrArg _ (State.takeTurn_cons hs)),
        ⟨hdone, hcfg, by simp [Video.turnsLeft, ha, hslot], hparts⟩, rfl⟩

/-- One turn of any agent: VIDW's is progress, another's neither progress nor loss. -/
theorem State.HostDone.turn {a : Agent} (hs : s.env.schedule = a :: sched) :
    ∃ u, step s = .next u ∧ State.Progress ([a].count .vidw) s u ∧ u.env.schedule = sched := by
  cases a with
  | host => exact h.host_turn hs
  | psgw => exact h.psgw_turn hs
  | vidw => exact h.vidw_turn hs

end

/-- A run over a schedule, by induction on its turns. -/
theorem State.HostDone.run {s : State} {turns rest : List Agent} (h : s.HostDone) (hs : s.env.schedule = turns ++ rest) :
    ∃ t, Sys2Proof.core.run turns.length s = .next t ∧ State.Progress (turns.count .vidw) s t ∧ t.env.schedule = rest := by
  induction turns generalizing s with
  | nil => exact ⟨s, rfl, h.progress_zero rfl rfl rfl rfl rfl, hs⟩
  | cons a turns ih =>
    obtain ⟨u, hstep, hprogress, hsched⟩ := h.turn hs
    obtain ⟨t, hrun, hprogress', hsched'⟩ := ih hprogress.hostDone hsched
    refine ⟨t, (run_succ turns.length hstep).trans hrun, ?_, hsched'⟩
    rw [← List.singleton_append, List.count_append]
    exact hprogress.trans hprogress'

/-- With no turn left the frame is finished: nothing is in flight and no part is left. -/
theorem Video.finished_of_turnsLeft_zero {c : Config} {v : Video} (h : v.turnsLeft c = 0) :
    v.inFlight = false ∧ v.partsLeft c = 0 := by
  unfold Video.turnsLeft at h
  unfold Video.inFlight Video.partsLeft
  cases ha : v.txActive with
  | true => simp [ha] at h
  | false =>
    cases hs : v.slot with
    | some b => simp [ha, hs] at h
    | none => exact ⟨rfl, rfl⟩

/-- Settles O59: the handed-over frame needs `PART_COUNT + 2` turns and `PART_COUNT` transfers. -/
theorem frameInFlightIsFinished : Obligations.FrameInFlightIsFinished := by
  intro s b turns rest hd hp hprog ha hslot hs hcount
  have hdone : s.HostDone := ⟨hd, hp, hprog, fun hact => by rw [ha] at hact; cases hact⟩
  obtain ⟨t, hrun, hprogress, hsched⟩ := hdone.run hs
  have hturns : s.video.turnsLeft s.cfg = s.cfg.partCount + 2 := by simp [Video.turnsLeft, ha, hslot]
  have hparts : s.video.partsLeft s.cfg = s.cfg.partCount := by simp [Video.partsLeft, ha, hslot]
  have hzero : t.video.turnsLeft s.cfg = 0 := by
    rw [hprogress.turns, hturns]
    exact Nat.sub_eq_zero_of_le hcount
  obtain ⟨hidle, hnone⟩ := Video.finished_of_turnsLeft_zero hzero
  have hsent := hprogress.parts
  rw [hnone, hparts, Nat.add_zero] at hsent
  exact ⟨t, hrun, hidle, hsent, hsched⟩

end Sys2Proof.Machine
